-- ==== Sys2Proof/Word.lean ====
section
/-! DEFINITION. The word types (00_scope.md R6): widths the spec fixes. -/

namespace Sys2Proof

/-- A 64-bit memory word, S or T register, V element (R6, R22 to R24). -/
abbrev Word := BitVec 64

/-- A 32-bit A or B register (10_state.md R20, R21). -/
abbrev Addr := BitVec 32

/-- A 24-bit program-relative parcel address (10_state.md R30). -/
abbrev PAddr := BitVec 24

/-- A 16-bit instruction parcel (30_encoding.md R120). -/
abbrev Parcel := BitVec 16

/-- The unit in which memory is listed (Host.Cell); the machine itself never addresses one (20_memory.md R83). -/
abbrev Byte := BitVec 8

end Sys2Proof
end

