-- ==== Sys2Proof/Syntax.lean ====
section
/-! DEFINITION. The instruction set as syntax: one constructor per row of spec/opcode_table.json, in the table's
order. Operands are the fields of 30_encoding.md R121 and R123: `h i j k` are the 3-bit designators, `jk` the
6-bit combination, `jkm` the 22-bit constant or displacement, `nm` the 32-bit one, `exp` the 24-bit `addr24`. -/

namespace Sys2Proof

/-- One constructor per row of the opcode table; the docstring gives the octal form, the CAL syntax, the rule. -/
inductive Instr where
  -- Register entry (40_register_entry.md)
  /-- 01hijkm `Ah exp` (R160, X-mode) -/
  | aImm24 (h : BitVec 3) (exp : BitVec 24)
  /-- 020ijkm `Ai exp` (R161, X-mode) -/
  | aImm22 (i : BitVec 3) (jkm : BitVec 22)
  /-- 021ijkm `Ai exp` (R162, X-mode) -/
  | aImm22c (i : BitVec 3) (jkm : BitVec 22)
  /-- 020i00mn `Ai exp` (R163, Y-mode) -/
  | aImm32 (i : BitVec 3) (nm : BitVec 32)
  /-- 021i00mn `Ai exp` (R164, Y-mode) -/
  | aImm32c (i : BitVec 3) (nm : BitVec 32)
  /-- 022ijk `Ai exp` (R165) -/
  | aImm6 (i : BitVec 3) (jk : BitVec 6)
  /-- 040ijkm `Si exp` (R167, X-mode) -/
  | sImm22 (i : BitVec 3) (jkm : BitVec 22)
  /-- 041ijkm `Si exp` (R168, X-mode) -/
  | sImm22c (i : BitVec 3) (jkm : BitVec 22)
  /-- 040i00mn `Si exp` (R169, Y-mode) -/
  | sImm32 (i : BitVec 3) (nm : BitVec 32)
  /-- 041i00mn `Si exp` (R170, Y-mode) -/
  | sImm32c (i : BitVec 3) (nm : BitVec 32)
  /-- 042ijk `Si <exp` (R171) -/
  | sMaskr (i : BitVec 3) (jk : BitVec 6)
  /-- 043ijk `Si >exp` (R172) -/
  | sMaskl (i : BitVec 3) (jk : BitVec 6)
  /-- 071i30 `Si 0.6` (R174) -/
  | sFc06 (i : BitVec 3)
  /-- 071i40 `Si 0.4` (R174) -/
  | sFc04 (i : BitVec 3)
  /-- 071i50 `Si 1.` (R174) -/
  | sFc1 (i : BitVec 3)
  /-- 071i60 `Si 2.` (R174) -/
  | sFc2 (i : BitVec 3)
  /-- 071i70 `Si 4.` (R174) -/
  | sFc4 (i : BitVec 3)
  -- Interregister transfer, vector element and shared registers (41_interregister_transfer.md)
  /-- 023ij0 `Ai Sj` (R200) -/
  | aFromS (i j : BitVec 3)
  /-- 023i01 `Ai VL` (R201) -/
  | aFromVl (i : BitVec 3)
  /-- 024ijk `Ai Bjk` (R202) -/
  | aFromB (i : BitVec 3) (jk : BitVec 6)
  /-- 025ijk `Bjk Ai` (R203) -/
  | bFromA (i : BitVec 3) (jk : BitVec 6)
  /-- 026ij7 `Ai SBj` (R204) -/
  | aFromSb (i j : BitVec 3)
  /-- 027ij7 `SBj Ai` (R206) -/
  | sbFromA (i j : BitVec 3)
  /-- 071i0k `Si Ak` (R210) -/
  | sFromA (i k : BitVec 3)
  /-- 071i1k `Si +Ak` (R211) -/
  | sFromASx (i k : BitVec 3)
  /-- 071i2k `Si +FAk` (R212) -/
  | sFromAFlt (i k : BitVec 3)
  /-- 072i00 `Si RT` (R213) -/
  | sFromRtc (i : BitVec 3)
  /-- 072i02 `Si SM` (R214) -/
  | sFromSm (i : BitVec 3)
  /-- 072ij3 `Si STj` (R215) -/
  | sFromSt (i j : BitVec 3)
  /-- 073i00 `Si VM` (R216) -/
  | sFromVm (i : BitVec 3)
  /-- 073i01 `Si SRj` (R217) -/
  | sFromSr (i : BitVec 3)
  /-- 073i02 `SM Si` (R218) -/
  | smFromS (i : BitVec 3)
  /-- 073ij3 `STj Si` (R219) -/
  | stFromS (i j : BitVec 3)
  /-- 074ijk `Si Tjk` (R220) -/
  | sFromT (i : BitVec 3) (jk : BitVec 6)
  /-- 075ijk `Tjk Si` (R221) -/
  | tFromS (i : BitVec 3) (jk : BitVec 6)
  /-- 076ijk `Si Vj,Ak` (R222) -/
  | sFromVelem (i j k : BitVec 3)
  /-- 077ijk `Vi,Ak Sj` (R229) -/
  | velemFromS (i j k : BitVec 3)
  /-- 0030j0 `VM Sj` (R231) -/
  | vmFromS (j : BitVec 3)
  /-- 00200k `VL Ak` (R232) -/
  | vlFromA (k : BitVec 3)
  /-- 0034jk `SMjk 1,TS` (R240) -/
  | smTs (jk : BitVec 6)
  /-- 0036jk `SMjk 0` (R241) -/
  | smClr (jk : BitVec 6)
  /-- 0037jk `SMjk 1` (R242) -/
  | smSet (jk : BitVec 6)
  -- Memory transfer (42_memory_transfer.md)
  /-- 002500 `DBM` (R250) -/
  | dbm
  /-- 002600 `EBM` (R251) -/
  | ebm
  /-- 002404 `DCBW` (R252) -/
  | dcbw
  /-- 002604 `ECBW` (R253) -/
  | ecbw
  /-- 002506 `DSBO` (R254) -/
  | dsbo
  /-- 002606 `ESBO` (R255) -/
  | esbo
  /-- 002700 `CMR` (R256) -/
  | cmr
  /-- 10hijkm `Ai exp,Ah` (R258, X-mode) -/
  | ldAX (h i : BitVec 3) (jkm : BitVec 22)
  /-- 10hi00mn `Ai exp,Ah` (R259, Y-mode) -/
  | ldAY (h i : BitVec 3) (nm : BitVec 32)
  /-- 11hijkm `exp,Ah Ai` (R260, X-mode) -/
  | stAX (h i : BitVec 3) (jkm : BitVec 22)
  /-- 11hi00mn `exp,Ah Ai` (R261, Y-mode) -/
  | stAY (h i : BitVec 3) (nm : BitVec 32)
  /-- 12hijkm `Si exp,Ah` (R263, X-mode) -/
  | ldSX (h i : BitVec 3) (jkm : BitVec 22)
  /-- 12hi00mn `Si exp,Ah` (R264, Y-mode) -/
  | ldSY (h i : BitVec 3) (nm : BitVec 32)
  /-- 13hijkm `exp,Ah Si` (R265, X-mode) -/
  | stSX (h i : BitVec 3) (jkm : BitVec 22)
  /-- 13hi00mn `exp,Ah Si` (R266, Y-mode) -/
  | stSY (h i : BitVec 3) (nm : BitVec 32)
  /-- 034ijk `Bjk,Ai ,A0` (R271) -/
  | ldBBlk (i : BitVec 3) (jk : BitVec 6)
  /-- 035ijk `,A0 Bjk,Ai` (R272) -/
  | stBBlk (i : BitVec 3) (jk : BitVec 6)
  /-- 036ijk `Tjk,Ai ,A0` (R273) -/
  | ldTBlk (i : BitVec 3) (jk : BitVec 6)
  /-- 037ijk `,A0 Tjk,Ai` (R274) -/
  | stTBlk (i : BitVec 3) (jk : BitVec 6)
  /-- 176i0k `Vi ,A0,Ak` (R279) -/
  | ldV (i k : BitVec 3)
  /-- 176i1k `Vi ,A0,Vk` (R280) -/
  | ldVGather (i k : BitVec 3)
  /-- 1770jk `,A0,Ak Vj` (R281) -/
  | stV (j k : BitVec 3)
  /-- 1771jk `,A0,Vk Vj` (R282) -/
  | stVScatter (j k : BitVec 3)
  -- Integer arithmetic (43_integer_arithmetic.md)
  /-- 030ijk `Ai Aj+Ak` (R291) -/
  | aAdd (i j k : BitVec 3)
  /-- 031ijk `Ai Aj-Ak` (R292) -/
  | aSub (i j k : BitVec 3)
  /-- 032ijk `Ai Aj*Ak` (R293) -/
  | aMul (i j k : BitVec 3)
  /-- 060ijk `Si Sj+Sk` (R294) -/
  | sAdd (i j k : BitVec 3)
  /-- 061ijk `Si Sj-Sk` (R295) -/
  | sSub (i j k : BitVec 3)
  /-- 154ijk `Vi Sj+Vk` (R296) -/
  | vAddSv (i j k : BitVec 3)
  /-- 155ijk `Vi Vj+Vk` (R297) -/
  | vAddVv (i j k : BitVec 3)
  /-- 156ijk `Vi Sj-Vk` (R298) -/
  | vSubSv (i j k : BitVec 3)
  /-- 157ijk `Vi Vj-Vk` (R299) -/
  | vSubVv (i j k : BitVec 3)
  -- Floating point (44_floating_point.md)
  /-- 002100 `EFI` (R322) -/
  | efi
  /-- 002200 `DFI` (R323) -/
  | dfi
  /-- 062ijk `Si Sj+FSk` (R324) -/
  | sFadd (i j k : BitVec 3)
  /-- 063ijk `Si Sj-FSk` (R325) -/
  | sFsub (i j k : BitVec 3)
  /-- 170ijk `Vi Sj+FVk` (R326) -/
  | vFaddSv (i j k : BitVec 3)
  /-- 171ijk `Vi Vj+FVk` (R327) -/
  | vFaddVv (i j k : BitVec 3)
  /-- 172ijk `Vi Sj-FVk` (R328) -/
  | vFsubSv (i j k : BitVec 3)
  /-- 173ijk `Vi Vj-FVk` (R329) -/
  | vFsubVv (i j k : BitVec 3)
  /-- 064ijk `Si Sj*FSk` (R330) -/
  | sFmul (i j k : BitVec 3)
  /-- 065ijk `Si Sj*HSk` (R331) -/
  | sFmulH (i j k : BitVec 3)
  /-- 066ijk `Si Sj*RSk` (R332) -/
  | sFmulR (i j k : BitVec 3)
  /-- 160ijk `Vi Sj*FVk` (R333) -/
  | vFmulSv (i j k : BitVec 3)
  /-- 161ijk `Vi Vj*FVk` (R334) -/
  | vFmulVv (i j k : BitVec 3)
  /-- 162ijk `Vi Sj*HVk` (R336) -/
  | vFmulHSv (i j k : BitVec 3)
  /-- 163ijk `Vi Vj*HVk` (R337) -/
  | vFmulHVv (i j k : BitVec 3)
  /-- 164ijk `Vi Sj*RVk` (R338) -/
  | vFmulRSv (i j k : BitVec 3)
  /-- 165ijk `Vi Vj*RVk` (R339) -/
  | vFmulRVv (i j k : BitVec 3)
  /-- 067ijk `Si Sj*ISk` (R340) -/
  | sFiter (i j k : BitVec 3)
  /-- 070ij0 `Si /HSj` (R341) -/
  | sFrecip (i j : BitVec 3)
  /-- 174ij0 `Vi /HVj` (R342) -/
  | vFrecip (i j : BitVec 3)
  /-- 166ijk `Vi Sj*IVk` (R345, X-mode) -/
  | vFiterSv (i j k : BitVec 3)
  /-- 166ijk `Vi Sj*Vk` (R346, Y-mode) -/
  | vImul32 (i j k : BitVec 3)
  /-- 167ijk `Vi Vj*IVk` (R347) -/
  | vFiterVv (i j k : BitVec 3)
  -- Logical, merge and vector mask (45_logical.md)
  /-- 044ijk `Si Sj&Sk` (R361) -/
  | sAnd (i j k : BitVec 3)
  /-- 045ijk `Si #Sk&Sj` (R362) -/
  | sAndn (i j k : BitVec 3)
  /-- 046ijk `Si Sj\Sk` (R363) -/
  | sXor (i j k : BitVec 3)
  /-- 047ijk `Si #Sj\Sk` (R366) -/
  | sXnor (i j k : BitVec 3)
  /-- 050ijk `Si Sj!Si&Sk` (R368) -/
  | sMerge (i j k : BitVec 3)
  /-- 051ijk `Si Sj!Sk` (R370) -/
  | sOr (i j k : BitVec 3)
  /-- 140ijk `Vi Sj&Vk` (R378) -/
  | vAndSv (i j k : BitVec 3)
  /-- 141ijk `Vi Vj&Vk` (R379) -/
  | vAndVv (i j k : BitVec 3)
  /-- 142ijk `Vi Sj!Vk` (R380) -/
  | vOrSv (i j k : BitVec 3)
  /-- 143ijk `Vi Vj!Vk` (R381) -/
  | vOrVv (i j k : BitVec 3)
  /-- 144ijk `Vi Sj\Vk` (R382) -/
  | vXorSv (i j k : BitVec 3)
  /-- 145ijk `Vi Vj\Vk` (R383) -/
  | vXorVv (i j k : BitVec 3)
  /-- 146ijk `Vi Sj!Vk&VM` (R384) -/
  | vMergeSv (i j k : BitVec 3)
  /-- 147ijk `Vi Vj!Vk&VM` (R385) -/
  | vMergeVv (i j k : BitVec 3)
  /-- 1750j0 `VM Vj,Z` (R391) -/
  | vmTestZ (j : BitVec 3)
  /-- 1750j1 `VM Vj,N` (R392) -/
  | vmTestN (j : BitVec 3)
  /-- 1750j2 `VM Vj,P` (R393) -/
  | vmTestP (j : BitVec 3)
  /-- 1750j3 `VM Vj,M` (R394) -/
  | vmTestM (j : BitVec 3)
  /-- 175ij4 `Vi,VM Vj,Z` (R395) -/
  | vmCidxZ (i j : BitVec 3)
  /-- 175ij5 `Vi,VM Vj,N` (R396) -/
  | vmCidxN (i j : BitVec 3)
  /-- 175ij6 `Vi,VM Vj,P` (R397) -/
  | vmCidxP (i j : BitVec 3)
  /-- 175ij7 `Vi,VM Vj,M` (R398) -/
  | vmCidxM (i j : BitVec 3)
  -- Shift (46_shift.md)
  /-- 052ijk `S0 Si<exp` (R401) -/
  | s0Shl (i : BitVec 3) (jk : BitVec 6)
  /-- 053ijk `S0 Si>exp` (R402) -/
  | s0Shr (i : BitVec 3) (jk : BitVec 6)
  /-- 054ijk `Si Si<exp` (R403) -/
  | sShl (i : BitVec 3) (jk : BitVec 6)
  /-- 055ijk `Si Si>exp` (R404) -/
  | sShr (i : BitVec 3) (jk : BitVec 6)
  /-- 056ijk `Si Si,Sj<Ak` (R405) -/
  | sDshl (i j k : BitVec 3)
  /-- 057ijk `Si Sj,Si>Ak` (R406) -/
  | sDshr (i j k : BitVec 3)
  /-- 150ijk `Vi Vj<Ak` (R410) -/
  | vShl (i j k : BitVec 3)
  /-- 151ijk `Vi Vj>Ak` (R411) -/
  | vShr (i j k : BitVec 3)
  /-- 152ijk `Vi Vj,Vj<Ak` (R412) -/
  | vDshl (i j k : BitVec 3)
  /-- 153ijk `Vi Vj,Vj>Ak` (R413) -/
  | vDshr (i j k : BitVec 3)
  -- Bit count (47_bit_count.md)
  /-- 026ij0 `Ai PSj` (R430) -/
  | aPop (i j : BitVec 3)
  /-- 026ij1 `Ai QSj` (R431) -/
  | aParity (i j : BitVec 3)
  /-- 027ij0 `Ai ZSj` (R432) -/
  | aLzc (i j : BitVec 3)
  /-- 174ij1 `Vi PVj` (R433) -/
  | vPop (i j : BitVec 3)
  /-- 174ij2 `Vi QVj` (R434) -/
  | vParity (i j : BitVec 3)
  -- Branch and exit (48_branch.md)
  /-- 0050jk `J Bjk` (R441) -/
  | jB (jk : BitVec 6)
  /-- 006ijkm `J exp` (R442) -/
  | jExp (exp : BitVec 24)
  /-- 010ijkm `JAZ exp` (R443) -/
  | jaz (exp : BitVec 24)
  /-- 011ijkm `JAN exp` (R444) -/
  | jan (exp : BitVec 24)
  /-- 012ijkm `JAP exp` (R445) -/
  | jap (exp : BitVec 24)
  /-- 013ijkm `JAM exp` (R446) -/
  | jam (exp : BitVec 24)
  /-- 014ijkm `JSZ exp` (R447) -/
  | jsz (exp : BitVec 24)
  /-- 015ijkm `JSN exp` (R448) -/
  | jsn (exp : BitVec 24)
  /-- 016ijkm `JSP exp` (R449) -/
  | jsp (exp : BitVec 24)
  /-- 017ijkm `JSM exp` (R450) -/
  | jsm (exp : BitVec 24)
  /-- 007ijkm `R exp` (R452) -/
  | rExp (exp : BitVec 24)
  /-- 004000 `EX` (R453) -/
  | ex
  /-- 000000 `ERR` (R454) -/
  | err
  -- Monitor mode and control (49_monitor_mode.md)
  /-- 001000 `PASS` (R472) -/
  | pass
  /-- 0010jk `CA,Aj Ak` (R474, privileged) -/
  | chCa (j k : BitVec 3)
  /-- 0011jk `CL,Aj Ak` (R475, privileged) -/
  | chCl (j k : BitVec 3)
  /-- 0012j0 `CI,Aj` (R476, privileged) -/
  | chCi (j : BitVec 3)
  /-- 0012j1 `MC,Aj` (R477, privileged) -/
  | chMc (j : BitVec 3)
  /-- 0013j0 `XA Aj` (R478, privileged) -/
  | xaFromA (j : BitVec 3)
  /-- 0014j0 `RT Sj` (R480, privileged) -/
  | rtcLoad (j : BitVec 3)
  /-- 0014j4 `PCI Sj` (R481, privileged) -/
  | pciLoad (j : BitVec 3)
  /-- 001405 `CCI` (R482, privileged) -/
  | cci
  /-- 001406 `ECI` (R483, privileged) -/
  | eci
  /-- 0014j1 `SIPI Aj` (R484, privileged) -/
  | sipi (j : BitVec 3)
  /-- 001407 `DCI` (R485, privileged) -/
  | dci
  /-- 001402 `CIPI` (R486, privileged) -/
  | cipi
  /-- 0014j3 `CLN Aj` (R487, privileged) -/
  | clnLoad (j : BitVec 3)
  /-- 002300 `ERI` (R490) -/
  | eri
  /-- 002400 `DRI` (R491) -/
  | dri
  /-- 033i00 `Ai CI` (R495) -/
  | aFromCi (i : BitVec 3)
  /-- 033ij0 `Ai CA,Aj` (R496) -/
  | aFromCa (i j : BitVec 3)
  /-- 033ij1 `Ai CE,Aj` (R497) -/
  | aFromCe (i j : BitVec 3)
  deriving DecidableEq, Repr

end Sys2Proof
end

