-- ==== Sys2Proof/WellFormed.lean ====
section
/-! DEFINITION. Which instruction terms are instructions of the machine (the `constraint` column of the opcode
table, 30_encoding.md R128, R131), and the address mode in which each exists (30_encoding.md R125, R127). -/

namespace Sys2Proof

/-- The operand conditions that the fields' widths do not already express: semaphore numbers are at most 37 octal
(R131, R240 to R242), 001000 is PASS and no 0010jk (R128), and 033ij0, 033ij1 name a channel with `j` nonzero. -/
def Instr.wf (i : Instr) : Bool :=
  match i with
  | .aImm24 _ _ => true
  | .aImm22 _ _ => true
  | .aImm22c _ _ => true
  | .aImm32 _ _ => true
  | .aImm32c _ _ => true
  | .aImm6 _ _ => true
  | .sImm22 _ _ => true
  | .sImm22c _ _ => true
  | .sImm32 _ _ => true
  | .sImm32c _ _ => true
  | .sMaskr _ _ => true
  | .sMaskl _ _ => true
  | .sFc06 _ => true
  | .sFc04 _ => true
  | .sFc1 _ => true
  | .sFc2 _ => true
  | .sFc4 _ => true
  | .aFromS _ _ => true
  | .aFromVl _ => true
  | .aFromB _ _ => true
  | .bFromA _ _ => true
  | .aFromSb _ _ => true
  | .sbFromA _ _ => true
  | .sFromA _ _ => true
  | .sFromASx _ _ => true
  | .sFromAFlt _ _ => true
  | .sFromRtc _ => true
  | .sFromSm _ => true
  | .sFromSt _ _ => true
  | .sFromVm _ => true
  | .sFromSr _ => true
  | .smFromS _ => true
  | .stFromS _ _ => true
  | .sFromT _ _ => true
  | .tFromS _ _ => true
  | .sFromVelem _ _ _ => true
  | .velemFromS _ _ _ => true
  | .vmFromS _ => true
  | .vlFromA _ => true
  | .smTs jk => decide (jk.toNat < 32)
  | .smClr jk => decide (jk.toNat < 32)
  | .smSet jk => decide (jk.toNat < 32)
  | .dbm => true
  | .ebm => true
  | .dcbw => true
  | .ecbw => true
  | .dsbo => true
  | .esbo => true
  | .cmr => true
  | .ldAX _ _ _ => true
  | .ldAY _ _ _ => true
  | .stAX _ _ _ => true
  | .stAY _ _ _ => true
  | .ldSX _ _ _ => true
  | .ldSY _ _ _ => true
  | .stSX _ _ _ => true
  | .stSY _ _ _ => true
  | .ldBBlk _ _ => true
  | .stBBlk _ _ => true
  | .ldTBlk _ _ => true
  | .stTBlk _ _ => true
  | .ldV _ _ => true
  | .ldVGather _ _ => true
  | .stV _ _ => true
  | .stVScatter _ _ => true
  | .aAdd _ _ _ => true
  | .aSub _ _ _ => true
  | .aMul _ _ _ => true
  | .sAdd _ _ _ => true
  | .sSub _ _ _ => true
  | .vAddSv _ _ _ => true
  | .vAddVv _ _ _ => true
  | .vSubSv _ _ _ => true
  | .vSubVv _ _ _ => true
  | .efi => true
  | .dfi => true
  | .sFadd _ _ _ => true
  | .sFsub _ _ _ => true
  | .vFaddSv _ _ _ => true
  | .vFaddVv _ _ _ => true
  | .vFsubSv _ _ _ => true
  | .vFsubVv _ _ _ => true
  | .sFmul _ _ _ => true
  | .sFmulH _ _ _ => true
  | .sFmulR _ _ _ => true
  | .vFmulSv _ _ _ => true
  | .vFmulVv _ _ _ => true
  | .vFmulHSv _ _ _ => true
  | .vFmulHVv _ _ _ => true
  | .vFmulRSv _ _ _ => true
  | .vFmulRVv _ _ _ => true
  | .sFiter _ _ _ => true
  | .sFrecip _ _ => true
  | .vFrecip _ _ => true
  | .vFiterSv _ _ _ => true
  | .vImul32 _ _ _ => true
  | .vFiterVv _ _ _ => true
  | .sAnd _ _ _ => true
  | .sAndn _ _ _ => true
  | .sXor _ _ _ => true
  | .sXnor _ _ _ => true
  | .sMerge _ _ _ => true
  | .sOr _ _ _ => true
  | .vAndSv _ _ _ => true
  | .vAndVv _ _ _ => true
  | .vOrSv _ _ _ => true
  | .vOrVv _ _ _ => true
  | .vXorSv _ _ _ => true
  | .vXorVv _ _ _ => true
  | .vMergeSv _ _ _ => true
  | .vMergeVv _ _ _ => true
  | .vmTestZ _ => true
  | .vmTestN _ => true
  | .vmTestP _ => true
  | .vmTestM _ => true
  | .vmCidxZ _ _ => true
  | .vmCidxN _ _ => true
  | .vmCidxP _ _ => true
  | .vmCidxM _ _ => true
  | .s0Shl _ _ => true
  | .s0Shr _ _ => true
  | .sShl _ _ => true
  | .sShr _ _ => true
  | .sDshl _ _ _ => true
  | .sDshr _ _ _ => true
  | .vShl _ _ _ => true
  | .vShr _ _ _ => true
  | .vDshl _ _ _ => true
  | .vDshr _ _ _ => true
  | .aPop _ _ => true
  | .aParity _ _ => true
  | .aLzc _ _ => true
  | .vPop _ _ => true
  | .vParity _ _ => true
  | .jB _ => true
  | .jExp _ => true
  | .jaz _ => true
  | .jan _ => true
  | .jap _ => true
  | .jam _ => true
  | .jsz _ => true
  | .jsn _ => true
  | .jsp _ => true
  | .jsm _ => true
  | .rExp _ => true
  | .ex => true
  | .err => true
  | .pass => true
  | .chCa j k => !(j == 0 && k == 0)
  | .chCl _ _ => true
  | .chCi _ => true
  | .chMc _ => true
  | .xaFromA _ => true
  | .rtcLoad _ => true
  | .pciLoad _ => true
  | .cci => true
  | .eci => true
  | .sipi _ => true
  | .dci => true
  | .cipi => true
  | .clnLoad _ => true
  | .eri => true
  | .dri => true
  | .aFromCi _ => true
  | .aFromCa _ j => j != 0
  | .aFromCe _ j => j != 0

/-- The address modes an instruction exists in. -/
inductive Modes where
  | xOnly
  | yOnly
  | both
  deriving DecidableEq, Repr

/-- The `mode` column of the opcode table (footnotes 5 and 6 of the source, 30_encoding.md R125, R127). -/
def Instr.modes (i : Instr) : Modes :=
  match i with
  | .aImm24 _ _ => .xOnly
  | .aImm22 _ _ => .xOnly
  | .aImm22c _ _ => .xOnly
  | .aImm32 _ _ => .yOnly
  | .aImm32c _ _ => .yOnly
  | .aImm6 _ _ => .both
  | .sImm22 _ _ => .xOnly
  | .sImm22c _ _ => .xOnly
  | .sImm32 _ _ => .yOnly
  | .sImm32c _ _ => .yOnly
  | .sMaskr _ _ => .both
  | .sMaskl _ _ => .both
  | .sFc06 _ => .both
  | .sFc04 _ => .both
  | .sFc1 _ => .both
  | .sFc2 _ => .both
  | .sFc4 _ => .both
  | .aFromS _ _ => .both
  | .aFromVl _ => .both
  | .aFromB _ _ => .both
  | .bFromA _ _ => .both
  | .aFromSb _ _ => .both
  | .sbFromA _ _ => .both
  | .sFromA _ _ => .both
  | .sFromASx _ _ => .both
  | .sFromAFlt _ _ => .both
  | .sFromRtc _ => .both
  | .sFromSm _ => .both
  | .sFromSt _ _ => .both
  | .sFromVm _ => .both
  | .sFromSr _ => .both
  | .smFromS _ => .both
  | .stFromS _ _ => .both
  | .sFromT _ _ => .both
  | .tFromS _ _ => .both
  | .sFromVelem _ _ _ => .both
  | .velemFromS _ _ _ => .both
  | .vmFromS _ => .both
  | .vlFromA _ => .both
  | .smTs _ => .both
  | .smClr _ => .both
  | .smSet _ => .both
  | .dbm => .both
  | .ebm => .both
  | .dcbw => .both
  | .ecbw => .both
  | .dsbo => .both
  | .esbo => .both
  | .cmr => .both
  | .ldAX _ _ _ => .xOnly
  | .ldAY _ _ _ => .yOnly
  | .stAX _ _ _ => .xOnly
  | .stAY _ _ _ => .yOnly
  | .ldSX _ _ _ => .xOnly
  | .ldSY _ _ _ => .yOnly
  | .stSX _ _ _ => .xOnly
  | .stSY _ _ _ => .yOnly
  | .ldBBlk _ _ => .both
  | .stBBlk _ _ => .both
  | .ldTBlk _ _ => .both
  | .stTBlk _ _ => .both
  | .ldV _ _ => .both
  | .ldVGather _ _ => .both
  | .stV _ _ => .both
  | .stVScatter _ _ => .both
  | .aAdd _ _ _ => .both
  | .aSub _ _ _ => .both
  | .aMul _ _ _ => .both
  | .sAdd _ _ _ => .both
  | .sSub _ _ _ => .both
  | .vAddSv _ _ _ => .both
  | .vAddVv _ _ _ => .both
  | .vSubSv _ _ _ => .both
  | .vSubVv _ _ _ => .both
  | .efi => .both
  | .dfi => .both
  | .sFadd _ _ _ => .both
  | .sFsub _ _ _ => .both
  | .vFaddSv _ _ _ => .both
  | .vFaddVv _ _ _ => .both
  | .vFsubSv _ _ _ => .both
  | .vFsubVv _ _ _ => .both
  | .sFmul _ _ _ => .both
  | .sFmulH _ _ _ => .both
  | .sFmulR _ _ _ => .both
  | .vFmulSv _ _ _ => .both
  | .vFmulVv _ _ _ => .both
  | .vFmulHSv _ _ _ => .both
  | .vFmulHVv _ _ _ => .both
  | .vFmulRSv _ _ _ => .both
  | .vFmulRVv _ _ _ => .both
  | .sFiter _ _ _ => .both
  | .sFrecip _ _ => .both
  | .vFrecip _ _ => .both
  | .vFiterSv _ _ _ => .xOnly
  | .vImul32 _ _ _ => .yOnly
  | .vFiterVv _ _ _ => .both
  | .sAnd _ _ _ => .both
  | .sAndn _ _ _ => .both
  | .sXor _ _ _ => .both
  | .sXnor _ _ _ => .both
  | .sMerge _ _ _ => .both
  | .sOr _ _ _ => .both
  | .vAndSv _ _ _ => .both
  | .vAndVv _ _ _ => .both
  | .vOrSv _ _ _ => .both
  | .vOrVv _ _ _ => .both
  | .vXorSv _ _ _ => .both
  | .vXorVv _ _ _ => .both
  | .vMergeSv _ _ _ => .both
  | .vMergeVv _ _ _ => .both
  | .vmTestZ _ => .both
  | .vmTestN _ => .both
  | .vmTestP _ => .both
  | .vmTestM _ => .both
  | .vmCidxZ _ _ => .both
  | .vmCidxN _ _ => .both
  | .vmCidxP _ _ => .both
  | .vmCidxM _ _ => .both
  | .s0Shl _ _ => .both
  | .s0Shr _ _ => .both
  | .sShl _ _ => .both
  | .sShr _ _ => .both
  | .sDshl _ _ _ => .both
  | .sDshr _ _ _ => .both
  | .vShl _ _ _ => .both
  | .vShr _ _ _ => .both
  | .vDshl _ _ _ => .both
  | .vDshr _ _ _ => .both
  | .aPop _ _ => .both
  | .aParity _ _ => .both
  | .aLzc _ _ => .both
  | .vPop _ _ => .both
  | .vParity _ _ => .both
  | .jB _ => .both
  | .jExp _ => .both
  | .jaz _ => .both
  | .jan _ => .both
  | .jap _ => .both
  | .jam _ => .both
  | .jsz _ => .both
  | .jsn _ => .both
  | .jsp _ => .both
  | .jsm _ => .both
  | .rExp _ => .both
  | .ex => .both
  | .err => .both
  | .pass => .both
  | .chCa _ _ => .both
  | .chCl _ _ => .both
  | .chCi _ => .both
  | .chMc _ => .both
  | .xaFromA _ => .both
  | .rtcLoad _ => .both
  | .pciLoad _ => .both
  | .cci => .both
  | .eci => .both
  | .sipi _ => .both
  | .dci => .both
  | .cipi => .both
  | .clnLoad _ => .both
  | .eri => .both
  | .dri => .both
  | .aFromCi _ => .both
  | .aFromCa _ _ => .both
  | .aFromCe _ _ => .both

/-- Whether the instruction exists when M.EAM is `eam` (true is Y-mode). -/
def Instr.inMode (i : Instr) (eam : Bool) : Bool :=
  match i.modes with
  | .xOnly => !eam
  | .yOnly => eam
  | .both => true

/-- Length in parcels: the `length` column of the opcode table. -/
def Instr.length (i : Instr) : Nat :=
  match i with
  | .aImm24 _ _ => 2
  | .aImm22 _ _ => 2
  | .aImm22c _ _ => 2
  | .aImm32 _ _ => 3
  | .aImm32c _ _ => 3
  | .aImm6 _ _ => 1
  | .sImm22 _ _ => 2
  | .sImm22c _ _ => 2
  | .sImm32 _ _ => 3
  | .sImm32c _ _ => 3
  | .sMaskr _ _ => 1
  | .sMaskl _ _ => 1
  | .sFc06 _ => 1
  | .sFc04 _ => 1
  | .sFc1 _ => 1
  | .sFc2 _ => 1
  | .sFc4 _ => 1
  | .aFromS _ _ => 1
  | .aFromVl _ => 1
  | .aFromB _ _ => 1
  | .bFromA _ _ => 1
  | .aFromSb _ _ => 1
  | .sbFromA _ _ => 1
  | .sFromA _ _ => 1
  | .sFromASx _ _ => 1
  | .sFromAFlt _ _ => 1
  | .sFromRtc _ => 1
  | .sFromSm _ => 1
  | .sFromSt _ _ => 1
  | .sFromVm _ => 1
  | .sFromSr _ => 1
  | .smFromS _ => 1
  | .stFromS _ _ => 1
  | .sFromT _ _ => 1
  | .tFromS _ _ => 1
  | .sFromVelem _ _ _ => 1
  | .velemFromS _ _ _ => 1
  | .vmFromS _ => 1
  | .vlFromA _ => 1
  | .smTs _ => 1
  | .smClr _ => 1
  | .smSet _ => 1
  | .dbm => 1
  | .ebm => 1
  | .dcbw => 1
  | .ecbw => 1
  | .dsbo => 1
  | .esbo => 1
  | .cmr => 1
  | .ldAX _ _ _ => 2
  | .ldAY _ _ _ => 3
  | .stAX _ _ _ => 2
  | .stAY _ _ _ => 3
  | .ldSX _ _ _ => 2
  | .ldSY _ _ _ => 3
  | .stSX _ _ _ => 2
  | .stSY _ _ _ => 3
  | .ldBBlk _ _ => 1
  | .stBBlk _ _ => 1
  | .ldTBlk _ _ => 1
  | .stTBlk _ _ => 1
  | .ldV _ _ => 1
  | .ldVGather _ _ => 1
  | .stV _ _ => 1
  | .stVScatter _ _ => 1
  | .aAdd _ _ _ => 1
  | .aSub _ _ _ => 1
  | .aMul _ _ _ => 1
  | .sAdd _ _ _ => 1
  | .sSub _ _ _ => 1
  | .vAddSv _ _ _ => 1
  | .vAddVv _ _ _ => 1
  | .vSubSv _ _ _ => 1
  | .vSubVv _ _ _ => 1
  | .efi => 1
  | .dfi => 1
  | .sFadd _ _ _ => 1
  | .sFsub _ _ _ => 1
  | .vFaddSv _ _ _ => 1
  | .vFaddVv _ _ _ => 1
  | .vFsubSv _ _ _ => 1
  | .vFsubVv _ _ _ => 1
  | .sFmul _ _ _ => 1
  | .sFmulH _ _ _ => 1
  | .sFmulR _ _ _ => 1
  | .vFmulSv _ _ _ => 1
  | .vFmulVv _ _ _ => 1
  | .vFmulHSv _ _ _ => 1
  | .vFmulHVv _ _ _ => 1
  | .vFmulRSv _ _ _ => 1
  | .vFmulRVv _ _ _ => 1
  | .sFiter _ _ _ => 1
  | .sFrecip _ _ => 1
  | .vFrecip _ _ => 1
  | .vFiterSv _ _ _ => 1
  | .vImul32 _ _ _ => 1
  | .vFiterVv _ _ _ => 1
  | .sAnd _ _ _ => 1
  | .sAndn _ _ _ => 1
  | .sXor _ _ _ => 1
  | .sXnor _ _ _ => 1
  | .sMerge _ _ _ => 1
  | .sOr _ _ _ => 1
  | .vAndSv _ _ _ => 1
  | .vAndVv _ _ _ => 1
  | .vOrSv _ _ _ => 1
  | .vOrVv _ _ _ => 1
  | .vXorSv _ _ _ => 1
  | .vXorVv _ _ _ => 1
  | .vMergeSv _ _ _ => 1
  | .vMergeVv _ _ _ => 1
  | .vmTestZ _ => 1
  | .vmTestN _ => 1
  | .vmTestP _ => 1
  | .vmTestM _ => 1
  | .vmCidxZ _ _ => 1
  | .vmCidxN _ _ => 1
  | .vmCidxP _ _ => 1
  | .vmCidxM _ _ => 1
  | .s0Shl _ _ => 1
  | .s0Shr _ _ => 1
  | .sShl _ _ => 1
  | .sShr _ _ => 1
  | .sDshl _ _ _ => 1
  | .sDshr _ _ _ => 1
  | .vShl _ _ _ => 1
  | .vShr _ _ _ => 1
  | .vDshl _ _ _ => 1
  | .vDshr _ _ _ => 1
  | .aPop _ _ => 1
  | .aParity _ _ => 1
  | .aLzc _ _ => 1
  | .vPop _ _ => 1
  | .vParity _ _ => 1
  | .jB _ => 1
  | .jExp _ => 2
  | .jaz _ => 2
  | .jan _ => 2
  | .jap _ => 2
  | .jam _ => 2
  | .jsz _ => 2
  | .jsn _ => 2
  | .jsp _ => 2
  | .jsm _ => 2
  | .rExp _ => 2
  | .ex => 1
  | .err => 1
  | .pass => 1
  | .chCa _ _ => 1
  | .chCl _ _ => 1
  | .chCi _ => 1
  | .chMc _ => 1
  | .xaFromA _ => 1
  | .rtcLoad _ => 1
  | .pciLoad _ => 1
  | .cci => 1
  | .eci => 1
  | .sipi _ => 1
  | .dci => 1
  | .cipi => 1
  | .clnLoad _ => 1
  | .eri => 1
  | .dri => 1
  | .aFromCi _ => 1
  | .aFromCa _ _ => 1
  | .aFromCe _ _ => 1

/-- Footnote 1 of the source, "Privileged to monitor mode": exactly the forms 49_monitor_mode.md R471 lists. -/
def Instr.privileged (i : Instr) : Bool :=
  match i with
  | .aImm24 _ _ => false
  | .aImm22 _ _ => false
  | .aImm22c _ _ => false
  | .aImm32 _ _ => false
  | .aImm32c _ _ => false
  | .aImm6 _ _ => false
  | .sImm22 _ _ => false
  | .sImm22c _ _ => false
  | .sImm32 _ _ => false
  | .sImm32c _ _ => false
  | .sMaskr _ _ => false
  | .sMaskl _ _ => false
  | .sFc06 _ => false
  | .sFc04 _ => false
  | .sFc1 _ => false
  | .sFc2 _ => false
  | .sFc4 _ => false
  | .aFromS _ _ => false
  | .aFromVl _ => false
  | .aFromB _ _ => false
  | .bFromA _ _ => false
  | .aFromSb _ _ => false
  | .sbFromA _ _ => false
  | .sFromA _ _ => false
  | .sFromASx _ _ => false
  | .sFromAFlt _ _ => false
  | .sFromRtc _ => false
  | .sFromSm _ => false
  | .sFromSt _ _ => false
  | .sFromVm _ => false
  | .sFromSr _ => false
  | .smFromS _ => false
  | .stFromS _ _ => false
  | .sFromT _ _ => false
  | .tFromS _ _ => false
  | .sFromVelem _ _ _ => false
  | .velemFromS _ _ _ => false
  | .vmFromS _ => false
  | .vlFromA _ => false
  | .smTs _ => false
  | .smClr _ => false
  | .smSet _ => false
  | .dbm => false
  | .ebm => false
  | .dcbw => false
  | .ecbw => false
  | .dsbo => false
  | .esbo => false
  | .cmr => false
  | .ldAX _ _ _ => false
  | .ldAY _ _ _ => false
  | .stAX _ _ _ => false
  | .stAY _ _ _ => false
  | .ldSX _ _ _ => false
  | .ldSY _ _ _ => false
  | .stSX _ _ _ => false
  | .stSY _ _ _ => false
  | .ldBBlk _ _ => false
  | .stBBlk _ _ => false
  | .ldTBlk _ _ => false
  | .stTBlk _ _ => false
  | .ldV _ _ => false
  | .ldVGather _ _ => false
  | .stV _ _ => false
  | .stVScatter _ _ => false
  | .aAdd _ _ _ => false
  | .aSub _ _ _ => false
  | .aMul _ _ _ => false
  | .sAdd _ _ _ => false
  | .sSub _ _ _ => false
  | .vAddSv _ _ _ => false
  | .vAddVv _ _ _ => false
  | .vSubSv _ _ _ => false
  | .vSubVv _ _ _ => false
  | .efi => false
  | .dfi => false
  | .sFadd _ _ _ => false
  | .sFsub _ _ _ => false
  | .vFaddSv _ _ _ => false
  | .vFaddVv _ _ _ => false
  | .vFsubSv _ _ _ => false
  | .vFsubVv _ _ _ => false
  | .sFmul _ _ _ => false
  | .sFmulH _ _ _ => false
  | .sFmulR _ _ _ => false
  | .vFmulSv _ _ _ => false
  | .vFmulVv _ _ _ => false
  | .vFmulHSv _ _ _ => false
  | .vFmulHVv _ _ _ => false
  | .vFmulRSv _ _ _ => false
  | .vFmulRVv _ _ _ => false
  | .sFiter _ _ _ => false
  | .sFrecip _ _ => false
  | .vFrecip _ _ => false
  | .vFiterSv _ _ _ => false
  | .vImul32 _ _ _ => false
  | .vFiterVv _ _ _ => false
  | .sAnd _ _ _ => false
  | .sAndn _ _ _ => false
  | .sXor _ _ _ => false
  | .sXnor _ _ _ => false
  | .sMerge _ _ _ => false
  | .sOr _ _ _ => false
  | .vAndSv _ _ _ => false
  | .vAndVv _ _ _ => false
  | .vOrSv _ _ _ => false
  | .vOrVv _ _ _ => false
  | .vXorSv _ _ _ => false
  | .vXorVv _ _ _ => false
  | .vMergeSv _ _ _ => false
  | .vMergeVv _ _ _ => false
  | .vmTestZ _ => false
  | .vmTestN _ => false
  | .vmTestP _ => false
  | .vmTestM _ => false
  | .vmCidxZ _ _ => false
  | .vmCidxN _ _ => false
  | .vmCidxP _ _ => false
  | .vmCidxM _ _ => false
  | .s0Shl _ _ => false
  | .s0Shr _ _ => false
  | .sShl _ _ => false
  | .sShr _ _ => false
  | .sDshl _ _ _ => false
  | .sDshr _ _ _ => false
  | .vShl _ _ _ => false
  | .vShr _ _ _ => false
  | .vDshl _ _ _ => false
  | .vDshr _ _ _ => false
  | .aPop _ _ => false
  | .aParity _ _ => false
  | .aLzc _ _ => false
  | .vPop _ _ => false
  | .vParity _ _ => false
  | .jB _ => false
  | .jExp _ => false
  | .jaz _ => false
  | .jan _ => false
  | .jap _ => false
  | .jam _ => false
  | .jsz _ => false
  | .jsn _ => false
  | .jsp _ => false
  | .jsm _ => false
  | .rExp _ => false
  | .ex => false
  | .err => false
  | .pass => false
  | .chCa _ _ => true
  | .chCl _ _ => true
  | .chCi _ => true
  | .chMc _ => true
  | .xaFromA _ => true
  | .rtcLoad _ => true
  | .pciLoad _ => true
  | .cci => true
  | .eci => true
  | .sipi _ => true
  | .dci => true
  | .cipi => true
  | .clnLoad _ => true
  | .eri => false
  | .dri => false
  | .aFromCi _ => false
  | .aFromCa _ _ => false
  | .aFromCe _ _ => false

end Sys2Proof
end

