-- ==== Sys2Proof/Decode.lean ====
section
/-! DEFINITION. Decoding and encoding (30_encoding.md): field extraction (R121, R123), instruction length by the
current address mode (R125), the opcode map by `gh` (R128, R129, R131), decoding of parcels and of bytes, and the
encoder. Decoding is total; what matches no row in the current mode is rejected by name. -/

namespace Sys2Proof

/-- Why a parcel sequence is no instruction. -/
inductive DecodeError where
  /-- the first parcel matches no row of the opcode table in the current mode (30_encoding.md R131) -/
  | unassigned
  /-- fewer parcels than the instruction's length (R125) -/
  | truncated
  deriving DecidableEq, Repr

/-! ## Fields of the first parcel (R121) -/

/-- Field g, bits 15:12. -/
def fieldG (p : Parcel) : BitVec 4 := p.extractLsb' 12 4
/-- Field h, bits 11:9. -/
def fieldH (p : Parcel) : BitVec 3 := p.extractLsb' 9 3
/-- Field i, bits 8:6. -/
def fieldI (p : Parcel) : BitVec 3 := p.extractLsb' 6 3
/-- Field j, bits 5:3. -/
def fieldJ (p : Parcel) : BitVec 3 := p.extractLsb' 3 3
/-- Field k, bits 2:0. -/
def fieldK (p : Parcel) : BitVec 3 := p.extractLsb' 0 3

/-! ## Combined fields (R123): leftmost letter most significant -/

/-- `jk = j : k`. -/
def joinJk (j k : BitVec 3) : BitVec 6 := j ++ k
/-- `jkm = j : k : m`. -/
def joinJkm (j k : BitVec 3) (m : Parcel) : BitVec 22 := j ++ k ++ m
/-- `addr24 = i[1:0] : j : k : m`; `i[2]` is a format flag. -/
def joinAddr24 (i j k : BitVec 3) (m : Parcel) : BitVec 24 := i.extractLsb' 0 2 ++ j ++ k ++ m
/-- `nm = n : m`: the second parcel is the low half. -/
def joinNm (m n : Parcel) : BitVec 32 := n ++ m
/-- The format flag `i[2]` of the F4 and F5 layouts (R122). -/
def iFlag (i : BitVec 3) : Bool := i.getLsbD 2

/-! ## Length (R125) -/

/-- The length in parcels of the instruction whose first parcel is `p0`, in Y-mode when `eam`. -/
def instrLength (p0 : Parcel) (eam : Bool) : Nat :=
  let g := (fieldG p0).toNat
  let h := (fieldH p0).toNat
  if g = 0 then (if h = 6 ∨ h = 7 then 2 else 1)
  else if g = 1 then 2
  else if (g = 2 ∨ g = 4) ∧ h < 2 then (if eam then 3 else 2)
  else if 8 ≤ g ∧ g < 12 then (if eam then 3 else 2)
  else 1

/-! ## The opcode map (R129), one function for each value of g -/

/-- gh = 001: PASS, the channel and clock controls, XA, CLN (49_monitor_mode.md). -/
def decode001 (i j k : BitVec 3) : Option Instr :=
  match i.toNat, k.toNat with
  | 0, _ => if j = 0 ∧ k = 0 then some .pass else some (.chCa j k)
  | 1, _ => some (.chCl j k)
  | 2, 0 => some (.chCi j)
  | 2, 1 => some (.chMc j)
  | 3, 0 => some (.xaFromA j)
  | 4, 0 => some (.rtcLoad j)
  | 4, 1 => some (.sipi j)
  | 4, 2 => if j = 0 then some .cipi else none
  | 4, 3 => some (.clnLoad j)
  | 4, 4 => some (.pciLoad j)
  | 4, 5 => if j = 0 then some .cci else none
  | 4, 6 => if j = 0 then some .eci else none
  | 4, 7 => if j = 0 then some .dci else none
  | _, _ => none

/-- gh = 002: VL, the mode-bit instructions, CMR; every printed digit is matched (R128). -/
def decode002 (i j k : BitVec 3) : Option Instr :=
  if j = 0 then
    match i.toNat, k.toNat with
    | 0, _ => some (.vlFromA k)
    | 1, 0 => some .efi
    | 2, 0 => some .dfi
    | 3, 0 => some .eri
    | 4, 0 => some .dri
    | 4, 4 => some .dcbw
    | 5, 0 => some .dbm
    | 5, 6 => some .dsbo
    | 6, 0 => some .ebm
    | 6, 4 => some .ecbw
    | 6, 6 => some .esbo
    | 7, 0 => some .cmr
    | _, _ => none
  else none

/-- gh = 003: VM and the semaphore instructions (`jk` at most 37 octal). -/
def decode003 (i j k : BitVec 3) : Option Instr :=
  match i.toNat with
  | 0 => if k = 0 then some (.vmFromS j) else none
  | 4 => if j.toNat < 4 then some (.smTs (joinJk j k)) else none
  | 6 => if j.toNat < 4 then some (.smClr (joinJk j k)) else none
  | 7 => if j.toNat < 4 then some (.smSet (joinJk j k)) else none
  | _ => none

/-- g = 0: gh 000 to 007. -/
def decodeG0 (h i j k : BitVec 3) (m : Parcel) : Option Instr :=
  match h.toNat with
  | 0 => if i = 0 ∧ j = 0 ∧ k = 0 then some .err else none
  | 1 => decode001 i j k
  | 2 => decode002 i j k
  | 3 => decode003 i j k
  | 4 => if i = 0 ∧ j = 0 ∧ k = 0 then some .ex else none
  | 5 => if i = 0 then some (.jB (joinJk j k)) else none
  | 6 => if iFlag i then none else some (.jExp (joinAddr24 i j k m))
  | _ => if iFlag i then none else some (.rExp (joinAddr24 i j k m))

/-- g = 1: conditional branches (`i[2] = 0`), and in X-mode the 24-bit constant (`i[2] = 1`). -/
def decodeG1 (eam : Bool) (h i j k : BitVec 3) (m : Parcel) : Option Instr :=
  let a := joinAddr24 i j k m
  if iFlag i then (if eam then none else some (.aImm24 h a))
  else match h.toNat with
  | 0 => some (.jaz a)
  | 1 => some (.jan a)
  | 2 => some (.jap a)
  | 3 => some (.jam a)
  | 4 => some (.jsz a)
  | 5 => some (.jsn a)
  | 6 => some (.jsp a)
  | _ => some (.jsm a)

/-- The two layouts of 020, 021, 040, 041: F3 in X-mode; F6 in Y-mode, where j and k must be 0 (R125). -/
def byMode (eam : Bool) (j k : BitVec 3) (m n : Parcel) (x : BitVec 22 → Instr) (y : BitVec 32 → Instr) :
    Option Instr :=
  if eam then (if j = 0 ∧ k = 0 then some (y (joinNm m n)) else none)
  else some (x (joinJkm j k m))

/-- g = 2: gh 020 to 027. -/
def decodeG2 (eam : Bool) (h i j k : BitVec 3) (m n : Parcel) : Option Instr :=
  match h.toNat with
  | 0 => byMode eam j k m n (.aImm22 i) (.aImm32 i)
  | 1 => byMode eam j k m n (.aImm22c i) (.aImm32c i)
  | 2 => some (.aImm6 i (joinJk j k))
  | 3 =>
    match k.toNat with
    | 0 => some (.aFromS i j)
    | 1 => if j = 0 then some (.aFromVl i) else none
    | _ => none
  | 4 => some (.aFromB i (joinJk j k))
  | 5 => some (.bFromA i (joinJk j k))
  | 6 =>
    match k.toNat with
    | 0 => some (.aPop i j)
    | 1 => some (.aParity i j)
    | 7 => some (.aFromSb i j)
    | _ => none
  | _ =>
    match k.toNat with
    | 0 => some (.aLzc i j)
    | 7 => some (.sbFromA i j)
    | _ => none

/-- g = 3: gh 030 to 037. -/
def decodeG3 (h i j k : BitVec 3) : Option Instr :=
  match h.toNat with
  | 0 => some (.aAdd i j k)
  | 1 => some (.aSub i j k)
  | 2 => some (.aMul i j k)
  | 3 =>
    match k.toNat with
    | 0 => if j = 0 then some (.aFromCi i) else some (.aFromCa i j)
    | 1 => if j = 0 then none else some (.aFromCe i j)
    | _ => none
  | 4 => some (.ldBBlk i (joinJk j k))
  | 5 => some (.stBBlk i (joinJk j k))
  | 6 => some (.ldTBlk i (joinJk j k))
  | _ => some (.stTBlk i (joinJk j k))

/-- g = 4: gh 040 to 047. -/
def decodeG4 (eam : Bool) (h i j k : BitVec 3) (m n : Parcel) : Option Instr :=
  match h.toNat with
  | 0 => byMode eam j k m n (.sImm22 i) (.sImm32 i)
  | 1 => byMode eam j k m n (.sImm22c i) (.sImm32c i)
  | 2 => some (.sMaskr i (joinJk j k))
  | 3 => some (.sMaskl i (joinJk j k))
  | 4 => some (.sAnd i j k)
  | 5 => some (.sAndn i j k)
  | 6 => some (.sXor i j k)
  | _ => some (.sXnor i j k)

/-- g = 5: gh 050 to 057. -/
def decodeG5 (h i j k : BitVec 3) : Option Instr :=
  match h.toNat with
  | 0 => some (.sMerge i j k)
  | 1 => some (.sOr i j k)
  | 2 => some (.s0Shl i (joinJk j k))
  | 3 => some (.s0Shr i (joinJk j k))
  | 4 => some (.sShl i (joinJk j k))
  | 5 => some (.sShr i (joinJk j k))
  | 6 => some (.sDshl i j k)
  | _ => some (.sDshr i j k)

/-- g = 6: gh 060 to 067. -/
def decodeG6 (h i j k : BitVec 3) : Option Instr :=
  match h.toNat with
  | 0 => some (.sAdd i j k)
  | 1 => some (.sSub i j k)
  | 2 => some (.sFadd i j k)
  | 3 => some (.sFsub i j k)
  | 4 => some (.sFmul i j k)
  | 5 => some (.sFmulH i j k)
  | 6 => some (.sFmulR i j k)
  | _ => some (.sFiter i j k)

/-- gh = 071: transfers from A by j = 0, 1, 2; constants by j = 3 .. 7 with k = 0. -/
def decode071 (i j k : BitVec 3) : Option Instr :=
  match j.toNat with
  | 0 => some (.sFromA i k)
  | 1 => some (.sFromASx i k)
  | 2 => some (.sFromAFlt i k)
  | 3 => if k = 0 then some (.sFc06 i) else none
  | 4 => if k = 0 then some (.sFc04 i) else none
  | 5 => if k = 0 then some (.sFc1 i) else none
  | 6 => if k = 0 then some (.sFc2 i) else none
  | _ => if k = 0 then some (.sFc4 i) else none

/-- g = 7: gh 070 to 077. -/
def decodeG7 (h i j k : BitVec 3) : Option Instr :=
  match h.toNat with
  | 0 => if k = 0 then some (.sFrecip i j) else none
  | 1 => decode071 i j k
  | 2 =>
    match k.toNat with
    | 0 => if j = 0 then some (.sFromRtc i) else none
    | 2 => if j = 0 then some (.sFromSm i) else none
    | 3 => some (.sFromSt i j)
    | _ => none
  | 3 =>
    match k.toNat with
    | 0 => if j = 0 then some (.sFromVm i) else none
    | 1 => if j = 0 then some (.sFromSr i) else none
    | 2 => if j = 0 then some (.smFromS i) else none
    | 3 => some (.stFromS i j)
    | _ => none
  | 4 => some (.sFromT i (joinJk j k))
  | 5 => some (.tFromS i (joinJk j k))
  | 6 => some (.sFromVelem i j k)
  | _ => some (.velemFromS i j k)

/-- g = 8: 10h, reads into A. -/
def decodeG8 (eam : Bool) (h i j k : BitVec 3) (m n : Parcel) : Option Instr :=
  byMode eam j k m n (.ldAX h i) (.ldAY h i)
/-- g = 9: 11h, writes from A. -/
def decodeG9 (eam : Bool) (h i j k : BitVec 3) (m n : Parcel) : Option Instr :=
  byMode eam j k m n (.stAX h i) (.stAY h i)
/-- g = 10: 12h, reads into S. -/
def decodeG10 (eam : Bool) (h i j k : BitVec 3) (m n : Parcel) : Option Instr :=
  byMode eam j k m n (.ldSX h i) (.ldSY h i)
/-- g = 11: 13h, writes from S. -/
def decodeG11 (eam : Bool) (h i j k : BitVec 3) (m n : Parcel) : Option Instr :=
  byMode eam j k m n (.stSX h i) (.stSY h i)

/-- g = 12: gh 140 to 147. -/
def decodeG12 (h i j k : BitVec 3) : Option Instr :=
  match h.toNat with
  | 0 => some (.vAndSv i j k)
  | 1 => some (.vAndVv i j k)
  | 2 => some (.vOrSv i j k)
  | 3 => some (.vOrVv i j k)
  | 4 => some (.vXorSv i j k)
  | 5 => some (.vXorVv i j k)
  | 6 => some (.vMergeSv i j k)
  | _ => some (.vMergeVv i j k)

/-- g = 13: gh 150 to 157. -/
def decodeG13 (h i j k : BitVec 3) : Option Instr :=
  match h.toNat with
  | 0 => some (.vShl i j k)
  | 1 => some (.vShr i j k)
  | 2 => some (.vDshl i j k)
  | 3 => some (.vDshr i j k)
  | 4 => some (.vAddSv i j k)
  | 5 => some (.vAddVv i j k)
  | 6 => some (.vSubSv i j k)
  | _ => some (.vSubVv i j k)

/-- g = 14: gh 160 to 167; 166 is another instruction in each mode (R127). -/
def decodeG14 (eam : Bool) (h i j k : BitVec 3) : Option Instr :=
  match h.toNat with
  | 0 => some (.vFmulSv i j k)
  | 1 => some (.vFmulVv i j k)
  | 2 => some (.vFmulHSv i j k)
  | 3 => some (.vFmulHVv i j k)
  | 4 => some (.vFmulRSv i j k)
  | 5 => some (.vFmulRVv i j k)
  | 6 => if eam then some (.vImul32 i j k) else some (.vFiterSv i j k)
  | _ => some (.vFiterVv i j k)

/-- gh = 175: mask tests (i = 0, k = 0 .. 3) and compressed index (k = 4 .. 7). -/
def decode175 (i j k : BitVec 3) : Option Instr :=
  match k.toNat with
  | 0 => if i = 0 then some (.vmTestZ j) else none
  | 1 => if i = 0 then some (.vmTestN j) else none
  | 2 => if i = 0 then some (.vmTestP j) else none
  | 3 => if i = 0 then some (.vmTestM j) else none
  | 4 => some (.vmCidxZ i j)
  | 5 => some (.vmCidxN i j)
  | 6 => some (.vmCidxP i j)
  | _ => some (.vmCidxM i j)

/-- g = 15: gh 170 to 177. -/
def decodeG15 (h i j k : BitVec 3) : Option Instr :=
  match h.toNat with
  | 0 => some (.vFaddSv i j k)
  | 1 => some (.vFaddVv i j k)
  | 2 => some (.vFsubSv i j k)
  | 3 => some (.vFsubVv i j k)
  | 4 =>
    match k.toNat with
    | 0 => some (.vFrecip i j)
    | 1 => some (.vPop i j)
    | 2 => some (.vParity i j)
    | _ => none
  | 5 => decode175 i j k
  | 6 =>
    match j.toNat with
    | 0 => some (.ldV i k)
    | 1 => some (.ldVGather i k)
    | _ => none
  | _ =>
    match i.toNat with
    | 0 => some (.stV j k)
    | 1 => some (.stVScatter j k)
    | _ => none

/-- The row that the fields select in the current mode (R128, R129), or none (R131). `m` and `n` are read only by
the rows whose length includes them. -/
def decodeFields (eam : Bool) (g : BitVec 4) (h i j k : BitVec 3) (m n : Parcel) : Option Instr :=
  match g.toNat with
  | 0 => decodeG0 h i j k m
  | 1 => decodeG1 eam h i j k m
  | 2 => decodeG2 eam h i j k m n
  | 3 => decodeG3 h i j k
  | 4 => decodeG4 eam h i j k m n
  | 5 => decodeG5 h i j k
  | 6 => decodeG6 h i j k
  | 7 => decodeG7 h i j k
  | 8 => decodeG8 eam h i j k m n
  | 9 => decodeG9 eam h i j k m n
  | 10 => decodeG10 eam h i j k m n
  | 11 => decodeG11 eam h i j k m n
  | 12 => decodeG12 h i j k
  | 13 => decodeG13 h i j k
  | 14 => decodeG14 eam h i j k
  | _ => decodeG15 h i j k

/-- Decoding of one instruction from its first parcel and the two that follow it (R128). -/
def decode (eam : Bool) (p0 m n : Parcel) : Option Instr :=
  decodeFields eam (fieldG p0) (fieldH p0) (fieldI p0) (fieldJ p0) (fieldK p0) m n

/-- Decoding from a list of parcels: the instruction and the parcels after it, or why there is none. -/
def decodeParcels (eam : Bool) (ps : List Parcel) : Except DecodeError (Instr × List Parcel) :=
  match ps with
  | [] => .error .truncated
  | p0 :: rest =>
    let l := instrLength p0 eam
    if rest.length + 1 < l then .error .truncated
    else
      match decode eam p0 (rest.getD 0 0) (rest.getD 1 0) with
      | some i => .ok (i, rest.drop (l - 1))
      | none => .error .unassigned

/-- Parcels of a byte sequence, each parcel's left byte first (20_memory.md R84); an odd last byte is no parcel. -/
def parcelsOfBytes : List Byte → List Parcel
  | b1 :: b0 :: rest => (b1 ++ b0) :: parcelsOfBytes rest
  | _ => []

/-- Decoding from bytes in memory order. -/
def decodeBytes (eam : Bool) (bs : List Byte) : Except DecodeError (Instr × List Parcel) :=
  decodeParcels eam (parcelsOfBytes bs)

/-! ## The encoder -/

/-- The first parcel `g : h : i : j : k` (R121). -/
def mkParcel (g : BitVec 4) (h i j k : BitVec 3) : Parcel := g ++ h ++ i ++ j ++ k

/-- F1 and the fixed one-parcel forms. -/
def enc1 (g : BitVec 4) (h i j k : BitVec 3) : List Parcel := [mkParcel g h i j k]
/-- F2: the 6-bit `jk`. -/
def encJk (g : BitVec 4) (h i : BitVec 3) (jk : BitVec 6) : List Parcel :=
  [mkParcel g h i (jk.extractLsb' 3 3) (jk.extractLsb' 0 3)]
/-- F3: the 22-bit `jkm`. -/
def encJkm (g : BitVec 4) (h i : BitVec 3) (jkm : BitVec 22) : List Parcel :=
  [mkParcel g h i (jkm.extractLsb' 19 3) (jkm.extractLsb' 16 3), jkm.extractLsb' 0 16]
/-- F4 and F5: the 24-bit `addr24` under the format flag `i[2]`. -/
def encAddr24 (g : BitVec 4) (h : BitVec 3) (flag : BitVec 1) (a : BitVec 24) : List Parcel :=
  [mkParcel g h (flag ++ a.extractLsb' 22 2) (a.extractLsb' 19 3) (a.extractLsb' 16 3), a.extractLsb' 0 16]
/-- F6: the 32-bit `nm`, low half in the second parcel, j = k = 0. -/
def encNm (g : BitVec 4) (h i : BitVec 3) (nm : BitVec 32) : List Parcel :=
  [mkParcel g h i 0 0, nm.extractLsb' 0 16, nm.extractLsb' 16 16]

/-- The parcels of an instruction, from the encoding tables of 30_encoding.md R121 to R126 and each row's form. -/
def encode (ins : Instr) : List Parcel :=
  match ins with
  | .aImm24 h exp => encAddr24 1 h 1 exp
  | .aImm22 i jkm => encJkm 2 0 i jkm
  | .aImm22c i jkm => encJkm 2 1 i jkm
  | .aImm32 i nm => encNm 2 0 i nm
  | .aImm32c i nm => encNm 2 1 i nm
  | .aImm6 i jk => encJk 2 2 i jk
  | .sImm22 i jkm => encJkm 4 0 i jkm
  | .sImm22c i jkm => encJkm 4 1 i jkm
  | .sImm32 i nm => encNm 4 0 i nm
  | .sImm32c i nm => encNm 4 1 i nm
  | .sMaskr i jk => encJk 4 2 i jk
  | .sMaskl i jk => encJk 4 3 i jk
  | .sFc06 i => enc1 7 1 i 3 0
  | .sFc04 i => enc1 7 1 i 4 0
  | .sFc1 i => enc1 7 1 i 5 0
  | .sFc2 i => enc1 7 1 i 6 0
  | .sFc4 i => enc1 7 1 i 7 0
  | .aFromS i j => enc1 2 3 i j 0
  | .aFromVl i => enc1 2 3 i 0 1
  | .aFromB i jk => encJk 2 4 i jk
  | .bFromA i jk => encJk 2 5 i jk
  | .aFromSb i j => enc1 2 6 i j 7
  | .sbFromA i j => enc1 2 7 i j 7
  | .sFromA i k => enc1 7 1 i 0 k
  | .sFromASx i k => enc1 7 1 i 1 k
  | .sFromAFlt i k => enc1 7 1 i 2 k
  | .sFromRtc i => enc1 7 2 i 0 0
  | .sFromSm i => enc1 7 2 i 0 2
  | .sFromSt i j => enc1 7 2 i j 3
  | .sFromVm i => enc1 7 3 i 0 0
  | .sFromSr i => enc1 7 3 i 0 1
  | .smFromS i => enc1 7 3 i 0 2
  | .stFromS i j => enc1 7 3 i j 3
  | .sFromT i jk => encJk 7 4 i jk
  | .tFromS i jk => encJk 7 5 i jk
  | .sFromVelem i j k => enc1 7 6 i j k
  | .velemFromS i j k => enc1 7 7 i j k
  | .vmFromS j => enc1 0 3 0 j 0
  | .vlFromA k => enc1 0 2 0 0 k
  | .smTs jk => encJk 0 3 4 jk
  | .smClr jk => encJk 0 3 6 jk
  | .smSet jk => encJk 0 3 7 jk
  | .dbm => enc1 0 2 5 0 0
  | .ebm => enc1 0 2 6 0 0
  | .dcbw => enc1 0 2 4 0 4
  | .ecbw => enc1 0 2 6 0 4
  | .dsbo => enc1 0 2 5 0 6
  | .esbo => enc1 0 2 6 0 6
  | .cmr => enc1 0 2 7 0 0
  | .ldAX h i jkm => encJkm 8 h i jkm
  | .ldAY h i nm => encNm 8 h i nm
  | .stAX h i jkm => encJkm 9 h i jkm
  | .stAY h i nm => encNm 9 h i nm
  | .ldSX h i jkm => encJkm 10 h i jkm
  | .ldSY h i nm => encNm 10 h i nm
  | .stSX h i jkm => encJkm 11 h i jkm
  | .stSY h i nm => encNm 11 h i nm
  | .ldBBlk i jk => encJk 3 4 i jk
  | .stBBlk i jk => encJk 3 5 i jk
  | .ldTBlk i jk => encJk 3 6 i jk
  | .stTBlk i jk => encJk 3 7 i jk
  | .ldV i k => enc1 15 6 i 0 k
  | .ldVGather i k => enc1 15 6 i 1 k
  | .stV j k => enc1 15 7 0 j k
  | .stVScatter j k => enc1 15 7 1 j k
  | .aAdd i j k => enc1 3 0 i j k
  | .aSub i j k => enc1 3 1 i j k
  | .aMul i j k => enc1 3 2 i j k
  | .sAdd i j k => enc1 6 0 i j k
  | .sSub i j k => enc1 6 1 i j k
  | .vAddSv i j k => enc1 13 4 i j k
  | .vAddVv i j k => enc1 13 5 i j k
  | .vSubSv i j k => enc1 13 6 i j k
  | .vSubVv i j k => enc1 13 7 i j k
  | .efi => enc1 0 2 1 0 0
  | .dfi => enc1 0 2 2 0 0
  | .sFadd i j k => enc1 6 2 i j k
  | .sFsub i j k => enc1 6 3 i j k
  | .vFaddSv i j k => enc1 15 0 i j k
  | .vFaddVv i j k => enc1 15 1 i j k
  | .vFsubSv i j k => enc1 15 2 i j k
  | .vFsubVv i j k => enc1 15 3 i j k
  | .sFmul i j k => enc1 6 4 i j k
  | .sFmulH i j k => enc1 6 5 i j k
  | .sFmulR i j k => enc1 6 6 i j k
  | .vFmulSv i j k => enc1 14 0 i j k
  | .vFmulVv i j k => enc1 14 1 i j k
  | .vFmulHSv i j k => enc1 14 2 i j k
  | .vFmulHVv i j k => enc1 14 3 i j k
  | .vFmulRSv i j k => enc1 14 4 i j k
  | .vFmulRVv i j k => enc1 14 5 i j k
  | .sFiter i j k => enc1 6 7 i j k
  | .sFrecip i j => enc1 7 0 i j 0
  | .vFrecip i j => enc1 15 4 i j 0
  | .vFiterSv i j k => enc1 14 6 i j k
  | .vImul32 i j k => enc1 14 6 i j k
  | .vFiterVv i j k => enc1 14 7 i j k
  | .sAnd i j k => enc1 4 4 i j k
  | .sAndn i j k => enc1 4 5 i j k
  | .sXor i j k => enc1 4 6 i j k
  | .sXnor i j k => enc1 4 7 i j k
  | .sMerge i j k => enc1 5 0 i j k
  | .sOr i j k => enc1 5 1 i j k
  | .vAndSv i j k => enc1 12 0 i j k
  | .vAndVv i j k => enc1 12 1 i j k
  | .vOrSv i j k => enc1 12 2 i j k
  | .vOrVv i j k => enc1 12 3 i j k
  | .vXorSv i j k => enc1 12 4 i j k
  | .vXorVv i j k => enc1 12 5 i j k
  | .vMergeSv i j k => enc1 12 6 i j k
  | .vMergeVv i j k => enc1 12 7 i j k
  | .vmTestZ j => enc1 15 5 0 j 0
  | .vmTestN j => enc1 15 5 0 j 1
  | .vmTestP j => enc1 15 5 0 j 2
  | .vmTestM j => enc1 15 5 0 j 3
  | .vmCidxZ i j => enc1 15 5 i j 4
  | .vmCidxN i j => enc1 15 5 i j 5
  | .vmCidxP i j => enc1 15 5 i j 6
  | .vmCidxM i j => enc1 15 5 i j 7
  | .s0Shl i jk => encJk 5 2 i jk
  | .s0Shr i jk => encJk 5 3 i jk
  | .sShl i jk => encJk 5 4 i jk
  | .sShr i jk => encJk 5 5 i jk
  | .sDshl i j k => enc1 5 6 i j k
  | .sDshr i j k => enc1 5 7 i j k
  | .vShl i j k => enc1 13 0 i j k
  | .vShr i j k => enc1 13 1 i j k
  | .vDshl i j k => enc1 13 2 i j k
  | .vDshr i j k => enc1 13 3 i j k
  | .aPop i j => enc1 2 6 i j 0
  | .aParity i j => enc1 2 6 i j 1
  | .aLzc i j => enc1 2 7 i j 0
  | .vPop i j => enc1 15 4 i j 1
  | .vParity i j => enc1 15 4 i j 2
  | .jB jk => encJk 0 5 0 jk
  | .jExp exp => encAddr24 0 6 0 exp
  | .jaz exp => encAddr24 1 0 0 exp
  | .jan exp => encAddr24 1 1 0 exp
  | .jap exp => encAddr24 1 2 0 exp
  | .jam exp => encAddr24 1 3 0 exp
  | .jsz exp => encAddr24 1 4 0 exp
  | .jsn exp => encAddr24 1 5 0 exp
  | .jsp exp => encAddr24 1 6 0 exp
  | .jsm exp => encAddr24 1 7 0 exp
  | .rExp exp => encAddr24 0 7 0 exp
  | .ex => enc1 0 4 0 0 0
  | .err => enc1 0 0 0 0 0
  | .pass => enc1 0 1 0 0 0
  | .chCa j k => enc1 0 1 0 j k
  | .chCl j k => enc1 0 1 1 j k
  | .chCi j => enc1 0 1 2 j 0
  | .chMc j => enc1 0 1 2 j 1
  | .xaFromA j => enc1 0 1 3 j 0
  | .rtcLoad j => enc1 0 1 4 j 0
  | .pciLoad j => enc1 0 1 4 j 4
  | .cci => enc1 0 1 4 0 5
  | .eci => enc1 0 1 4 0 6
  | .sipi j => enc1 0 1 4 j 1
  | .dci => enc1 0 1 4 0 7
  | .cipi => enc1 0 1 4 0 2
  | .clnLoad j => enc1 0 1 4 j 3
  | .eri => enc1 0 2 3 0 0
  | .dri => enc1 0 2 4 0 0
  | .aFromCi i => enc1 3 3 i 0 0
  | .aFromCa i j => enc1 3 3 i j 0
  | .aFromCe i j => enc1 3 3 i j 1

/-! ## The opcode table's numbering of an instruction's bits -/

/-- Parcel `q` of an instruction numbered as spec/opcode_table.json numbers it: bit 0 is the least significant bit
of the first parcel, each later parcel 16 bits up. -/
def tableParcel (nbits w q : Nat) : Parcel := BitVec.ofNat 16 ((w % 2 ^ nbits) / 2 ^ (16 * q))

/-- The bytes of that instruction as memory holds them: each parcel's left byte first. -/
def tableBytes (nbits w : Nat) : List Byte :=
  [0, 1, 2].flatMap fun q =>
    [(tableParcel nbits w q).extractLsb' 8 8, (tableParcel nbits w q).extractLsb' 0 8]

/-- The address mode in which a table word is read: Y-mode when its first parcel is one of a row that exists in Y-mode
only, X-mode otherwise, and X-mode when the word is given more than one parcel but fewer than the Y-mode row has
(log 15: the table's numbering carries no mode). -/
def tableEam (nbits w : Nat) : Bool :=
  match decodeBytes true (tableBytes nbits w) with
  | .ok (i, _) => i.modes == .yOnly && (decide (nbits ≤ 16) || decide (16 * i.length ≤ nbits))
  | .error _ => false

/-- The instruction the decoder reads from a table word. -/
def decodeTableWord (nbits w : Nat) : Option Instr :=
  match decodeBytes (tableEam nbits w) (tableBytes nbits w) with
  | .ok (i, _) => some i
  | .error _ => none

end Sys2Proof
end

