-- ==== Sys2Proof/Config.lean ====
section
/-! DEFINITION. What an implementation fixes (00_scope.md R7) and what the spec leaves open.
The parameters that are plain data (NCPU, MEMWORDS, NCLUSTER, XPLayout, SRLayout, BLWidth, BLGrain, XASel) form the
structure `Params`, which the machine's state carries unchanged, so that a statement holds for every instance.
The free values (00_scope.md R16 `draw`, and the parts of FPConfig the source does not describe) are opaque constants:
nothing can be proved of what they return. -/

namespace Sys2Proof

/-! ## The flag and mode registers' bits -/

/-- The 11 flags of the F register, in the source's order (10_state.md R40). -/
inductive FlagName where
  | icp | dl | pci | mcu | fpe | ore | pre | me | ioi | eex | nex
  deriving DecidableEq, Repr

/-- The 11 fields of the M register, in the source's order (10_state.md R41). -/
inductive ModeName where
  | ps | fps | bdm | ior | ifp | ium | icm | eam | sei | imm | mm
  deriving DecidableEq, Repr

/-! ## The layout of the exchange package (XPLayout, 10_state.md R56) -/

/-- Every field of the exchange package that R56 lists. -/
inductive XPField where
  | pn | p | iba | ila | dba | dla | xa | vl | cln | vnu | ws | cbw | sbo
  | syndrome | readBank | errType | port | chipSelect | readMode
  | flag (f : FlagName)
  | mode (m : ModeName)
  | a (i : BitVec 3)
  | s (i : BitVec 3)
  deriving DecidableEq, Repr

/-- The place of a field: word 0 .. 15 of the package, lowest bit in that word, width in bits. -/
structure Slot where
  word : Nat
  lo : Nat
  width : Nat
  deriving DecidableEq, Repr

/-- The eight 3-bit register designators. -/
def designators : List (BitVec 3) := [0, 1, 2, 3, 4, 5, 6, 7]

/-- The flags in order. -/
def FlagName.all : List FlagName := [.icp, .dl, .pci, .mcu, .fpe, .ore, .pre, .me, .ioi, .eex, .nex]

/-- The mode fields in order. -/
def ModeName.all : List ModeName := [.ps, .fps, .bdm, .ior, .ifp, .ium, .icm, .eam, .sei, .imm, .mm]

/-- Every field of the package once. -/
def XPField.all : List XPField :=
  [.pn, .p, .iba, .ila, .dba, .dla, .xa, .vl, .cln, .vnu, .ws, .cbw, .sbo,
    .syndrome, .readBank, .errType, .port, .chipSelect, .readMode]
  ++ FlagName.all.map .flag ++ ModeName.all.map .mode ++ designators.map .a ++ designators.map .s

/-- A layout: each field with its place. -/
abbrev XPLayout := List (XPField × Slot)

/-- The width R56 fixes for a field; none where the spec gives no width (the base and limit registers, whose width is
the parameter BLWidth, and the memory error data fields, 10_state.md R48). -/
def XPField.width? (f : XPField) : Option Nat :=
  match f with
  | .pn => some 3
  | .p => some 24
  | .iba => none
  | .ila => none
  | .dba => none
  | .dla => none
  | .xa => some 8
  | .vl => some 7
  | .cln => some 4
  | .vnu => some 1
  | .ws => some 1
  | .cbw => some 1
  | .sbo => some 1
  | .syndrome => none
  | .readBank => none
  | .errType => none
  | .port => none
  | .chipSelect => none
  | .readMode => none
  | .flag _ => some 1
  | .mode _ => some 1
  | .a _ => some 32
  | .s _ => some 64

/-- Whether a field is one of the four base and limit registers. -/
def XPField.isBaseLimit (f : XPField) : Bool := f == .iba || f == .ila || f == .dba || f == .dla

/-- The first bit of a slot, counted over the 16 words as one 1024-bit image with word 0 lowest. -/
def Slot.start (s : Slot) : Nat := 64 * s.word + s.lo

/-- Two slots share no bit. -/
def Slot.disjoint (s t : Slot) : Bool := decide (s.start + s.width ≤ t.start) || decide (t.start + t.width ≤ s.start)

/-- The place a layout gives a field (a slot of width 0 where it gives none, which `XPLayout.wf` excludes). -/
def XPLayout.slot (l : XPLayout) (f : XPField) : Slot :=
  match l.find? (fun e => e.1 == f) with
  | some e => e.2
  | none => ⟨0, 0, 0⟩

/-- The constraints R56 puts on a layout: every field has exactly one place, within one word, no two overlap, with
the widths R56 fixes, BLWidth for the base and limit fields, and 1 to 16 bits for the memory error data fields. -/
def XPLayout.wf (l : XPLayout) (blWidth : Nat) : Bool :=
  decide (l.map (·.1) = XPField.all)
  && l.all (fun e => decide (e.2.word < 16 ∧ e.2.lo + e.2.width ≤ 64))
  && l.all (fun e =>
      match e.1.width? with
      | some w => e.2.width == w
      | none => if e.1.isBaseLimit then e.2.width == blWidth else decide (1 ≤ e.2.width ∧ e.2.width ≤ 16))
  && decide (l.Pairwise fun a b => a.2.disjoint b.2 = true)

/-! ## The layout of the status register (SRLayout, 10_state.md R49, 41_interregister_transfer.md R217) -/

/-- Bit positions in the S register that 073i01 writes: the eight status bits, and the lowest bits of the 3-bit
processor number and of the 4-bit cluster number. -/
structure SRLayout where
  clustered : Nat
  ume : Nat
  cme : Nat
  ps : Nat
  fps : Nat
  ifp : Nat
  ior : Nat
  bdm : Nat
  pn : Nat
  cln : Nat
  deriving DecidableEq, Repr

/-- The bits a layout uses, as a list. -/
def SRLayout.bits (l : SRLayout) : List Nat :=
  [l.clustered, l.ume, l.cme, l.ps, l.fps, l.ifp, l.ior, l.bdm, l.pn, l.pn + 1, l.pn + 2,
    l.cln, l.cln + 1, l.cln + 2, l.cln + 3]

/-- No bit is used twice and all lie in the 64-bit register. DESIGN CHOICE (log 6): R217 puts the items in "the high-order
bit positions" without saying how far down these reach, so every distinct position below 64 is admitted. -/
def SRLayout.wf (l : SRLayout) : Bool := decide l.bits.Nodup && l.bits.all (fun b => decide (b < 64))

/-- Which bits of (Aj) instruction 0013j0 loads into XA (49_monitor_mode.md R478, D55). -/
inductive XASel where
  | low8
  | addr
  deriving DecidableEq, Repr

/-! ## The parameters -/

/-- The parameters of 00_scope.md R7 that are plain data. (NCHAN and ChannelConfig are the channel list of the state,
each channel with its number and direction; FPConfig is the opaque functions below; Reset is `State.reset`; SKID is
0, 60_exceptions.md R530.) -/
structure Params where
  /-- NCPU, number of CPUs -/
  ncpu : Nat
  /-- MEMWORDS, central memory size in words -/
  memWords : Nat
  /-- NCLUSTER, clusters are numbered 1 .. ncluster -/
  ncluster : Nat
  /-- XPLayout -/
  xp : XPLayout
  /-- SRLayout -/
  sr : SRLayout
  /-- BLWidth, bits of a base or limit field of the package -/
  blWidth : Nat
  /-- BLGrain: a base or limit field counts units of 2^blGrain words -/
  blGrain : Nat
  /-- XASel -/
  xaSel : XASel
  deriving DecidableEq, Repr

/-- The values R7 allows: NCPU 1, 2 or 4; MEMWORDS 2^25, 2^26 or 2^27; a cluster number fits CLN's 4 bits (10_state.md
R38); the layouts are admissible; a base or limit fits the model's 32-bit registers (log 21). -/
def Params.wf (c : Params) : Bool :=
  decide (c.ncpu ∈ [1, 2, 4])
  && decide (c.memWords ∈ [2 ^ 25, 2 ^ 26, 2 ^ 27])
  && decide (c.ncluster < 16)
  && decide (1 ≤ c.blWidth)
  && decide (c.blWidth + c.blGrain ≤ 32)
  && c.xp.wf c.blWidth
  && c.sr.wf

/-! ## Free values -/

/-- `draw` of 00_scope.md R16: the n-th value drawn. The machine counts its draws (`State.draws`), so that no two
draws are known to agree (log 2). -/
opaque Config.draw : Nat → Word

/-- A raw floating-point result before the range check (44_floating_point.md R312): sign, unbounded biased
exponent, 48-bit coefficient. -/
structure FPRaw where
  sign : Bool
  exp : Int
  coef : BitVec 48
  deriving DecidableEq, Repr, Inhabited

/-- What `FPConfig.fadd` gives where R313 leaves the instance free. -/
opaque Config.fadd : Word → Word → FPRaw

/-- What `FPConfig.fmul` gives where R314 leaves the instance free. -/
opaque Config.fmul : Word → Word → FPRaw
/-- The last-place choice of `FPConfig.fmul` within the bound of R314 (2). -/
opaque Config.fmulDelta : Word → Word → BitVec 2
/-- Whether the raw exponent of `FPConfig.fmul` is one less than the sum (R314 (6)), where the instance is free. -/
opaque Config.fmulBorrow : Word → Word → Bool

/-- As `Config.fmul`, for the rounded product (R315). -/
opaque Config.fmulR : Word → Word → FPRaw
/-- As `Config.fmulDelta`, for the rounded product (R315). -/
opaque Config.fmulRDelta : Word → Word → BitVec 2
/-- As `Config.fmulBorrow`, for the rounded product (R315). -/
opaque Config.fmulRBorrow : Word → Word → Bool
/-- The rounded product of two operands with zero exponents (44_floating_point.md R335, left to the instance). -/
opaque Config.fmulRInt : Word → Word → Word

/-- The sign of the half-precision product (R316), where an exponent field is 0 and R314 (1) does not fix it. -/
opaque Config.fmulHSign : Word → Word → Bool
/-- As `Config.fmulDelta`, for the half-precision product (R316). -/
opaque Config.fmulHDelta : Word → Word → BitVec 2
/-- As `Config.fmulBorrow`, for the half-precision product (R316). -/
opaque Config.fmulHBorrow : Word → Word → Bool
/-- The half-precision product of two operands with zero exponents (R331, R335, left to the instance). -/
opaque Config.fmulHInt : Word → Word → Word

/-- What `FPConfig.fiter` gives within the constraint of R317 (log 16), and where R317 leaves the instance free. -/
opaque Config.fiter : Word → Word → FPRaw

/-- What `FPConfig.frecip` gives within the constraints of R318. -/
opaque Config.frecip : Word → FPRaw

end Sys2Proof
end

