-- ==== Sys2Proof/Machine/State.lean ====
section
/-! DEFINITION. The machine's state as plain data (10_state.md), the reasons a step can stop, and the state right
after reset. Every field's rule and reset value stand in INVENTORY.md, `## State`. -/

namespace Sys2Proof.Machine

open Sys2Proof

/-! ## Parts of a CPU -/

/-- F, the flag register: 11 one-bit flags (10_state.md R39, R40). Their places in the package are XPLayout's. -/
structure Flags where
  icp : Bool
  dl : Bool
  pci : Bool
  mcu : Bool
  fpe : Bool
  ore : Bool
  pre : Bool
  me : Bool
  ioi : Bool
  eex : Bool
  nex : Bool
  deriving DecidableEq, Repr

/-- M, the mode register: 11 one-bit fields (10_state.md R41). -/
structure Mode where
  ps : Bool
  fps : Bool
  bdm : Bool
  ior : Bool
  ifp : Bool
  ium : Bool
  icm : Bool
  eam : Bool
  sei : Bool
  imm : Bool
  mm : Bool
  deriving DecidableEq, Repr

/-- The six memory error data fields of the exchange package (10_state.md R48); the source gives no widths (log 21). -/
structure MemErrInfo where
  syndrome : BitVec 16
  readBank : BitVec 16
  errType : BitVec 16
  port : BitVec 16
  chipSelect : BitVec 16
  readMode : BitVec 16
  deriving DecidableEq, Repr

/-- An operand reference that is not known complete: word address, whether a block reference (20_memory.md R96),
whether a write. -/
structure Ref where
  addr : Nat
  block : Bool
  write : Bool
  deriving DecidableEq, Repr

/-- One CPU (10_state.md sections 1 to 5). -/
structure Cpu where
  /-- PN, the processor number, a constant of the CPU (R47) -/
  pn : BitVec 3
  /-- the IOS has deadstarted this CPU (70_reset_and_hazards.md R580 `started`) -/
  started : Bool
  /-- its deadstart exchange is still to come (R580) -/
  deadstart : Bool
  /-- A0 .. A7 (R20) -/
  a : Vector Addr (2 ^ 3)
  /-- B00 .. B77 (R21) -/
  b : Vector Addr (2 ^ 6)
  /-- S0 .. S7 (R22) -/
  s : Vector Word (2 ^ 3)
  /-- T00 .. T77 (R23) -/
  t : Vector Word (2 ^ 6)
  /-- V0 .. V7, 64 elements each (R24) -/
  v : Vector (Vector Word (2 ^ 6)) (2 ^ 3)
  /-- VL, 0 .. 64 (R25) -/
  vl : BitVec 7
  /-- VM, bit 63 - e for element e (R26) -/
  vm : Word
  /-- P, the parcel address of the next instruction (R30) -/
  p : PAddr
  /-- IBA, in words (R33) -/
  iba : BitVec 32
  /-- ILA (R34) -/
  ila : BitVec 32
  /-- DBA (R35) -/
  dba : BitVec 32
  /-- DLA (R36) -/
  dla : BitVec 32
  /-- XA: the package of the next exchange is at word 16 * XA (R37) -/
  xa : BitVec 8
  /-- CLN, 0 is no cluster (R38) -/
  cln : BitVec 4
  /-- F (R39) -/
  f : Flags
  /-- M (R41) -/
  m : Mode
  /-- a vector instruction was issued in this execution interval; VNU is its complement (R43) -/
  vused : Bool
  /-- CBW (R45) -/
  cbw : Bool
  /-- SBO (R46) -/
  sbo : Bool
  /-- the memory error data recorded in this execution interval (R48) -/
  memErr : Option MemErrInfo
  /-- uncorrectable memory error occurred, sticky (R49) -/
  umeSeen : Bool
  /-- correctable memory error occurred, sticky (R49) -/
  cmeSeen : Bool
  /-- II, the interval register of the programmable clock (R50) -/
  ii : BitVec 32
  /-- PC, the programmable clock's down-counter (R50) -/
  pc : BitVec 32
  /-- pci_enabled (R50) -/
  pciEnabled : Bool
  /-- pci_request (R50) -/
  pciRequest : Bool
  /-- ipi_request of this CPU (R51) -/
  ipiRequest : Bool
  /-- the semaphore on which a test and set in CIP holds issue (R32, R44, 41_interregister_transfer.md R240) -/
  holding : Option (BitVec 6)
  /-- operand references that may still be in progress (20_memory.md R98; log 13) -/
  refs : List Ref
  /-- the value of `State.writeClock` when this execution interval began (20_memory.md R104; log 12) -/
  intervalStart : Nat
  deriving DecidableEq, Repr

/-! ## Shared parts -/

/-- Direction of a channel (ChannelConfig, 00_scope.md R7). -/
inductive Direction where
  | input
  | output
  deriving DecidableEq, Repr

/-- One I/O channel as the CPUs see it (10_state.md R55). -/
structure Channel where
  /-- channel number (ChannelConfig) -/
  num : Addr
  /-- direction (ChannelConfig) -/
  dir : Direction
  /-- the CPUs this channel may interrupt (ChannelConfig's restriction of E, 60_exceptions.md R520; log 24) -/
  serves : List (BitVec 3)
  /-- CA, current address -/
  ca : Addr
  /-- CL, channel limit -/
  cl : Addr
  /-- a transfer is in progress (49_monitor_mode.md R474) -/
  active : Bool
  intFlag : Bool
  errFlag : Bool
  masterClear : Bool
  readyHeld : Bool
  deriving DecidableEq, Repr

/-- One cluster of shared registers (10_state.md R54): semaphore n is bit n of `sm` counted from the left. -/
structure Cluster where
  sb : Vector Addr (2 ^ 3)
  st : Vector Word (2 ^ 3)
  sm : BitVec 32
  deriving DecidableEq, Repr

/-- Kinds of memory error (60_exceptions.md R519, R524). -/
inductive MemErrKind where
  | correctable
  | uncorrectable
  deriving DecidableEq, Repr

/-- Which of the memory reads that the moving CPU makes in one step (60_exceptions.md R524): the n-th parcel of the
fetch, the n-th element of the operand reference (0 of a scalar one), the n-th word of the exchange package. -/
inductive ReadSite where
  | fetch (n : Nat)
  | operand (n : Nat)
  | package (n : Nat)
  deriving DecidableEq, Repr

/-- A memory error that accompanies one of those reads (20_memory.md R93, 60_exceptions.md R524; log 25). -/
structure ReadError where
  site : ReadSite
  kind : MemErrKind
  info : MemErrInfo
  deriving DecidableEq, Repr

/-- A register in which a parity error can occur (60_exceptions.md R524; log 25). -/
inductive ParityReg where
  | a (i : BitVec 3)
  | b (n : BitVec 6)
  | s (i : BitVec 3)
  | t (n : BitVec 6)
  | v (i : BitVec 3) (e : BitVec 6)
  deriving DecidableEq, Repr

/-- What the world outside the CPUs' instruction streams does at an instruction boundary (log 3). -/
inductive Event where
  /-- one clock period: RTC and every programmable clock advance (60_exceptions.md R550, R552) -/
  | tick
  /-- the next CPU of the ring becomes the one that moves (60_exceptions.md R565; log 29) -/
  | turn
  /-- the IOS sends the MCU signal to CPU `p` (R515) -/
  | mcu (p : BitVec 3)
  /-- a memory error accompanies one of the reads that the moving CPU makes in this step, if it makes it (R524) -/
  | readError (e : ReadError)
  /-- a parity error in a register of CPU `p`, an uncorrectable event (R519, R524) -/
  | parityError (p : BitVec 3) (reg : ParityReg) (info : MemErrInfo)
  /-- the agent of channel `ch` runs its loop once; `w` is the word an input device delivers (R560) -/
  | chanStep (ch : Addr) (w : Word)
  /-- as `chanStep` of an output channel, its read of memory with an error, which CPU `p` is told (R524) -/
  | chanReadError (ch : Addr) (p : BitVec 3) (kind : MemErrKind) (info : MemErrInfo)
  /-- the agent of channel `ch` ends the transfer with an error, if a word was left to move (R560) -/
  | chanError (ch : Addr)
  /-- an input device holds ready on channel `ch` (10_state.md R55) -/
  | readyHeld (ch : Addr)
  /-- the IOS deadstarts CPU `p` with the package at 16 * `xa` (70_reset_and_hazards.md R580) -/
  | deadstart (p : BitVec 3) (xa : BitVec 8)
  deriving DecidableEq, Repr

/-- Central memory (20_memory.md R80) as byte cells: byte `8 * a + n` is byte n from the left of word a (log 7). -/
abbrev Memory := List Host.Cell

/-- The canonical form: addresses strictly rising, no entry equal to what an unlisted byte reads as (0, log 8). -/
def Memory.wf (m : Memory) : Bool :=
  decide (m.Pairwise fun x y => x.1 < y.1) && m.all (fun c => c.2 != 0)

/-- The whole machine. -/
structure State where
  /-- the parameters (00_scope.md R7), written by no step -/
  params : Params
  /-- the CPU that moves in this step -/
  cpu : Cpu
  /-- the other CPUs, in the order in which they would come to move (60_exceptions.md R565; log 29) -/
  others : List Cpu
  /-- central memory (20_memory.md R80) -/
  mem : Memory
  /-- RTC (10_state.md R53) -/
  rtc : Word
  /-- the shared-register clusters; entry 0 stands for no cluster and is neither read nor written (10_state.md R54) -/
  clusters : Vector Cluster (2 ^ 4)
  /-- the I/O channels, highest interrupt priority first (10_state.md R55; log 24) -/
  channels : List Channel
  /-- word addresses written and the write clock at the last write of each (20_memory.md R104; log 12) -/
  writeLog : List (Nat × Nat)
  /-- number of words written so far (log 12) -/
  writeClock : Nat
  /-- number of free values drawn so far (00_scope.md R16; log 2) -/
  draws : Nat
  /-- what happens outside at the coming boundaries, one batch for each step (log 3) -/
  agenda : List (List Event)
  /-- the memory errors that accompany reads of this step; each step begins with none (60_exceptions.md R524; log 25) -/
  readErrors : List ReadError
  deriving DecidableEq, Repr

/-! ## Reasons to stop -/

/-- Stops that stand for behaviour the spec rules out or leaves without an outcome, all safe: nothing can be proved
of what the hardware would do there. -/
inductive Fault where
  /-- raised by operand references, fetches, exchanges and channel transfers at an absolute address at or above
  MEMWORDS (20_memory.md R86, R88, R91); safe -/
  | beyondMemory
  /-- raised by operand references that fall under an overlap BDM, CBW or SBO permits (20_memory.md R98); safe -/
  | overlapRace
  /-- raised by a CPU access (operand, fetch, exchange) to a word inside an active channel's range (20_memory.md R103); safe -/
  | channelRace
  /-- raised by a fetch of a word written since the CPU's last exchange (20_memory.md R104); safe -/
  | staleFetch
  deriving DecidableEq, Repr

/-- Stops where a rule of the spec says `refuse` (00_scope.md R16): the source gives no effect. All safe. -/
inductive Refusal where
  /-- raised by `exec` for an instruction without a meaning yet (no instruction now) -/
  | notModelled (mnemonic : String)
  /-- raised by the fetch of a first parcel that matches no row in the current mode (30_encoding.md R131) -/
  | unassigned (p0 : Parcel)
  /-- raised by a reference or fetch at exactly the limit address (20_memory.md R86, R88) -/
  | limitEquality
  /-- raised by a vector instruction with VL = 0 (41_interregister_transfer.md R205) -/
  | vlZero
  /-- raised by 00200k with (Ak) above 100 octal (41 R232) -/
  | vlTooLarge
  /-- raised by an exchange whose package holds VL above 64 (60_exceptions.md R531) -/
  | packageVl
  /-- raised by an exchange whose package holds a cluster number above NCLUSTER (60 R531) -/
  | packageCln
  /-- raised by 076 and 077 with an element index of 64 or more (41 R222, R229) -/
  | elementIndex
  /-- raised by 034 to 037 with a count beyond the register file (42_memory_transfer.md R270) -/
  | blockCount
  /-- raised by a shared-register instruction with CLN = 0 (41 R235) -/
  | noCluster
  /-- raised by an X-mode memory instruction whose displacement has bit 21 set (42 R262) -/
  | displacementSign
  /-- raised by 0050jk through a B register above 24 bits (48_branch.md R441) -/
  | branchTooWide
  /-- raised by 152, 153, 175ij4 to 175ij7 with i = j and by the gather with i = k (41 R205, D15) -/
  | vectorOverlap
  /-- raised by 0013j0 with an operand beyond the exchange address field (49_monitor_mode.md R478) -/
  | xaOperand
  /-- raised by 0014j4 with an operand beyond 32 bits (49 R481) -/
  | clockOperand
  /-- raised by a clock period at which a programmable clock stands at 0 (60 R552) -/
  | clockAtZero
  /-- raised by 0014j1 to a CPU that does not exist (49 R484) -/
  | sipiTarget
  /-- raised by 0014j1 to the issuing CPU (49 R484) -/
  | sipiSelf
  /-- raised by 0014j3 with a cluster number above NCLUSTER (49 R487) -/
  | clusterNumber
  /-- raised by a channel instruction whose channel is not in the configuration (49 R473) -/
  | channelNumber
  /-- raised by 0010jk and 0011jk on an active channel (49 R474, R475) -/
  | channelActive
  /-- raised by a fetch outside the instruction range with the interrupt inhibited (60 R518) -/
  | fetchInhibited
  deriving DecidableEq, Repr

/-- A stop of either kind, before it becomes an outcome. -/
inductive Stop where
  | fault (r : Fault)
  | refuse (r : Refusal)
  deriving DecidableEq, Repr

/-- The outcome of an instruction or of a step. -/
abbrev Out := Host.Outcome State Fault Refusal

/-! ## Reset -/

/-- The layout of the reset state's package: one admissible instance of XPLayout (log 6, DESIGN CHOICE). -/
def resetSlot (f : XPField) : Slot :=
  match f with
  | .a i => ⟨i.toNat / 2, 32 * (i.toNat % 2), 32⟩
  | .p => ⟨4, 0, 24⟩
  | .xa => ⟨4, 24, 8⟩
  | .vl => ⟨4, 32, 7⟩
  | .cln => ⟨4, 39, 4⟩
  | .pn => ⟨4, 43, 3⟩
  | .vnu => ⟨4, 46, 1⟩
  | .ws => ⟨4, 47, 1⟩
  | .cbw => ⟨4, 48, 1⟩
  | .sbo => ⟨4, 49, 1⟩
  | .flag g =>
    match g with
    | .icp => ⟨5, 0, 1⟩
    | .dl => ⟨5, 1, 1⟩
    | .pci => ⟨5, 2, 1⟩
    | .mcu => ⟨5, 3, 1⟩
    | .fpe => ⟨5, 4, 1⟩
    | .ore => ⟨5, 5, 1⟩
    | .pre => ⟨5, 6, 1⟩
    | .me => ⟨5, 7, 1⟩
    | .ioi => ⟨5, 8, 1⟩
    | .eex => ⟨5, 9, 1⟩
    | .nex => ⟨5, 10, 1⟩
  | .mode g =>
    match g with
    | .ps => ⟨5, 11, 1⟩
    | .fps => ⟨5, 12, 1⟩
    | .bdm => ⟨5, 13, 1⟩
    | .ior => ⟨5, 14, 1⟩
    | .ifp => ⟨5, 15, 1⟩
    | .ium => ⟨5, 16, 1⟩
    | .icm => ⟨5, 17, 1⟩
    | .eam => ⟨5, 18, 1⟩
    | .sei => ⟨5, 19, 1⟩
    | .imm => ⟨5, 20, 1⟩
    | .mm => ⟨5, 21, 1⟩
  | .syndrome => ⟨5, 22, 8⟩
  | .readBank => ⟨5, 30, 8⟩
  | .errType => ⟨5, 38, 2⟩
  | .port => ⟨5, 40, 2⟩
  | .chipSelect => ⟨5, 42, 8⟩
  | .readMode => ⟨5, 50, 2⟩
  | .iba => ⟨6, 0, 32⟩
  | .ila => ⟨6, 32, 32⟩
  | .dba => ⟨7, 0, 32⟩
  | .dla => ⟨7, 32, 32⟩
  | .s i => ⟨8 + i.toNat, 0, 64⟩

/-- The reset state's parameters: the largest system of 00_scope.md R1 but for its memory (log 6, DESIGN CHOICE). -/
def resetParams : Params :=
  { ncpu := 4
    memWords := 2 ^ 25
    ncluster := 15
    xp := XPField.all.map fun f => (f, resetSlot f)
    sr := { clustered := 63, ume := 62, cme := 61, ps := 60, fps := 59, ifp := 58, ior := 57, bdm := 56,
            pn := 48, cln := 52 }
    blWidth := 32
    blGrain := 0
    xaSel := .addr }

/-- All flags clear. -/
def Flags.none : Flags :=
  { icp := false, dl := false, pci := false, mcu := false, fpe := false, ore := false, pre := false, me := false,
    ioi := false, eex := false, nex := false }

/-- A CPU at reset: the values log 4 names (all DESIGN CHOICE but the three request and enable bits, which start
cleared by 70_reset_and_hazards.md R580). -/
def Cpu.reset (pn : BitVec 3) (started : Bool) : Cpu :=
  { pn := pn
    started := started
    deadstart := false
    a := Vector.replicate _ 0
    b := Vector.replicate _ 0
    s := Vector.replicate _ 0
    t := Vector.replicate _ 0
    v := Vector.replicate _ (Vector.replicate _ 0)
    vl := 64
    vm := 0
    p := 0
    iba := 0
    ila := BitVec.ofNat 32 resetParams.memWords
    dba := 0
    dla := BitVec.ofNat 32 resetParams.memWords
    xa := 0
    cln := 1
    f := Flags.none
    m := { ps := false, fps := false, bdm := false, ior := false, ifp := false, ium := false, icm := false,
           eam := false, sei := false, imm := false, mm := true }
    vused := false
    cbw := false
    sbo := false
    memErr := Option.none
    umeSeen := false
    cmeSeen := false
    ii := 0xFFFFFFFF
    pc := 0xFFFFFFFF
    pciEnabled := false
    pciRequest := false
    ipiRequest := false
    holding := Option.none
    refs := []
    intervalStart := 0 }

/-- An idle channel with all its registers and flags 0, which may interrupt any CPU. -/
def Channel.reset (num : Addr) (dir : Direction) : Channel :=
  { num := num, dir := dir, serves := [0, 1, 2, 3], ca := 0, cl := 0, active := false, intFlag := false,
    errFlag := false, masterClear := false, readyHeld := false }

/-- A cluster with every register 0. -/
def Cluster.reset : Cluster :=
  { sb := Vector.replicate _ 0, st := Vector.replicate _ 0, sm := 0 }

/-- The machine right after reset: the table of 10_state.md R57 (the state after deadstart), with the values log 4
names wherever the spec gives none. Memory lists nothing. -/
def State.reset : State :=
  { params := resetParams
    cpu := Cpu.reset 0 true
    others := [Cpu.reset 1 false, Cpu.reset 2 false, Cpu.reset 3 false]
    mem := []
    rtc := 0
    clusters := Vector.replicate _ Cluster.reset
    channels := [Channel.reset 0 .input, Channel.reset 1 .output, Channel.reset 2 .input, Channel.reset 3 .output]
    writeLog := []
    writeClock := 0
    draws := 0
    agenda := []
    readErrors := [] }

end Sys2Proof.Machine
end

