-- ==== Sys2Proof/Machine/Flags.lean ====
section
/-! DEFINITION. The flag register F and the status bits that instructions and events set (60_exceptions.md R511 to
R523). No instruction reads or writes F directly (10_state.md R39); the machine has no condition codes (10_state.md
R28), so these are all the flag computations there are. -/

namespace Sys2Proof.Machine

open Sys2Proof

/-- One flag of F. -/
def Flags.get (f : Flags) (n : FlagName) : Bool :=
  match n with
  | .icp => f.icp
  | .dl => f.dl
  | .pci => f.pci
  | .mcu => f.mcu
  | .fpe => f.fpe
  | .ore => f.ore
  | .pre => f.pre
  | .me => f.me
  | .ioi => f.ioi
  | .eex => f.eex
  | .nex => f.nex

/-- One field of M. -/
def Mode.get (m : Mode) (n : ModeName) : Bool :=
  match n with
  | .ps => m.ps
  | .fps => m.fps
  | .bdm => m.bdm
  | .ior => m.ior
  | .ifp => m.ifp
  | .ium => m.ium
  | .icm => m.icm
  | .eam => m.eam
  | .sei => m.sei
  | .imm => m.imm
  | .mm => m.mm

/-- F is not 0: an exchange sequence begins at the next boundary (R530). -/
def Flags.any (f : Flags) : Bool :=
  f.icp || f.dl || f.pci || f.mcu || f.fpe || f.ore || f.pre || f.me || f.ioi || f.eex || f.nex

/-- The gate of ICP, PCI, MCU and IOI: closed in monitor mode whatever IMM is (R523). -/
def userGate (m : Mode) : Bool := !m.mm

/-- The gate of DL, FPE, ORE and PRE: closed in monitor mode unless IMM is set (R523). -/
def immGate (m : Mode) : Bool := !m.mm || m.imm

/-- `raise FloatingPointError` (R516): FPS always; the flag if IFP is set and the gate is open. -/
def Cpu.raiseFpe (c : Cpu) : Cpu :=
  { c with m := { c.m with fps := true }
           f := { c.f with fpe := c.f.fpe || (c.m.ifp && immGate c.m) } }

/-- `raise OperandRange` (R517): the flag if IOR is set and the gate is open; nothing records the address. -/
def Cpu.raiseOre (c : Cpu) : Cpu :=
  { c with f := { c.f with ore := c.f.ore || (c.m.ior && immGate c.m) } }

/-- The flag part of `raise ProgramRange` with its gate open (R518). -/
def Cpu.raisePre (c : Cpu) : Cpu := { c with f := { c.f with pre := true } }

/-- The flag of the error exit instruction: set in user mode, and in monitor mode if IMM is set (R521). -/
def Cpu.raiseEex (c : Cpu) : Cpu := { c with f := { c.f with eex := c.f.eex || immGate c.m } }

/-- The flag of the normal exit instruction: set in user mode, whatever IMM is (R522). -/
def Cpu.raiseNex (c : Cpu) : Cpu := { c with f := { c.f with nex := c.f.nex || userGate c.m } }

/-- The event of R515: the flag in user mode, otherwise no trace. -/
def Cpu.raiseMcu (c : Cpu) : Cpu := { c with f := { c.f with mcu := c.f.mcu || userGate c.m } }

/-- The mode bit for a kind of memory error: M.ICM or M.IUM (R519). -/
def Mode.reports (m : Mode) (kind : MemErrKind) : Bool :=
  match kind with
  | .correctable => m.icm
  | .uncorrectable => m.ium

/-- The event of R519: the sticky bit always; the flag and the error data if the mode bit for its kind is set. DESIGN
CHOICE (log 21): R48 gives no encoding of the read error type, so all six fields are what the event says, and that
field is not tied to `kind`. -/
def Cpu.noteMemError (c : Cpu) (kind : MemErrKind) (info : MemErrInfo) : Cpu :=
  { c with cmeSeen := c.cmeSeen || kind == .correctable
           umeSeen := c.umeSeen || kind == .uncorrectable
           f := { c.f with me := c.f.me || c.m.reports kind }
           memErr := if c.m.reports kind then some info else c.memErr }

/-- The level conditions a CPU finds in its own requests at a boundary: ICP (R512) and PCI (R514). -/
def Cpu.seeRequests (c : Cpu) : Cpu :=
  { c with f := { c.f with icp := c.f.icp || (c.ipiRequest && userGate c.m)
                           pci := c.f.pci || (c.pciRequest && c.pciEnabled && userGate c.m) } }

/-- F.IOI <- 1 (R520). -/
def Cpu.raiseIoi (c : Cpu) : Cpu := { c with f := { c.f with ioi := true } }

/-- F.DL <- 1 (R513). -/
def Cpu.raiseDl (c : Cpu) : Cpu := { c with f := { c.f with dl := true } }

end Sys2Proof.Machine
end

