-- ==== Sys2Proof/Machine/Ops.lean ====
section
/-! DEFINITION. The named operations over memory and registers: central memory by words (20_memory.md), operand
references with relocation, range check and race checks, register files with the address mask (00_scope.md R13),
and the exchange sequence (60_exceptions.md R531), which is the machine's one way to take an exception and its one
way to return from one. -/

namespace Sys2Proof.Machine

open Sys2Proof

/-! ## Stops -/

/-- The outcome a stop becomes. -/
def Stop.out (e : Stop) : Out :=
  match e with
  | .fault r => .fault r
  | .refuse r => .refused r

/-- Go on with the value of a computation that may have stopped. -/
def orStop {α : Type} (r : Except Stop α) (k : α → Out) : Out :=
  match r with
  | .ok x => k x
  | .error e => e.out

/-! ## Register files -/

/-- Read register `i` of a file whose designator has `n` bits. -/
def regGet {α : Type} {n : Nat} (v : Vector α (2 ^ n)) (i : BitVec n) : α := v[i.toNat]'i.isLt

/-- Write register `i` of a file whose designator has `n` bits. -/
def regPut {α : Type} {n : Nat} (v : Vector α (2 ^ n)) (i : BitVec n) (x : α) : Vector α (2 ^ n) :=
  v.set i.toNat x i.isLt

/-- `amask` (00_scope.md R13): 24 bits in X-mode, all 32 in Y-mode (`eam` true). -/
def amask (eam : Bool) (v : Addr) : Addr := if eam then v else (v.setWidth 24).setWidth 32

/-- `AW` (R13). -/
def addrWidth (eam : Bool) : Nat := if eam then 32 else 24

/-- `asign` (R13): bit AW - 1. -/
def asign (eam : Bool) (v : Addr) : Bool := v.getLsbD (addrWidth eam - 1)

/-- Replace the CPU that moves. -/
def State.withCpu (s : State) (c : Cpu) : State := { s with cpu := c }

/-- (Ai), actual contents, masked on reading (R13). -/
def State.readA (s : State) (i : BitVec 3) : Addr := amask s.cpu.m.eam (regGet s.cpu.a i)

/-- `A[i] <- v`, masked on writing (R13). -/
def State.writeA (s : State) (i : BitVec 3) (v : Addr) : State :=
  s.withCpu { s.cpu with a := regPut s.cpu.a i (amask s.cpu.m.eam v) }

/-- (Bjk), masked on reading (R13). -/
def State.readB (s : State) (n : BitVec 6) : Addr := amask s.cpu.m.eam (regGet s.cpu.b n)

/-- `B[n] <- v`, masked on writing (R13). -/
def State.writeB (s : State) (n : BitVec 6) (v : Addr) : State :=
  s.withCpu { s.cpu with b := regPut s.cpu.b n (amask s.cpu.m.eam v) }

/-- (Si), actual contents. -/
def State.readS (s : State) (i : BitVec 3) : Word := regGet s.cpu.s i

/-- `S[i] <- v`. -/
def State.writeS (s : State) (i : BitVec 3) (v : Word) : State :=
  s.withCpu { s.cpu with s := regPut s.cpu.s i v }

/-- (Tjk). -/
def State.readT (s : State) (n : BitVec 6) : Word := regGet s.cpu.t n

/-- `T[n] <- v`. -/
def State.writeT (s : State) (n : BitVec 6) (v : Word) : State :=
  s.withCpu { s.cpu with t := regPut s.cpu.t n v }

/-- The 64 elements of Vi. -/
def State.readV (s : State) (i : BitVec 3) : Vector Word (2 ^ 6) := regGet s.cpu.v i

/-- Replace all elements of Vi. -/
def State.writeV (s : State) (i : BitVec 3) (x : Vector Word (2 ^ 6)) : State :=
  s.withCpu { s.cpu with v := regPut s.cpu.v i x }

/-- `V[i][e]`. -/
def State.velem (s : State) (i : BitVec 3) (e : BitVec 6) : Word := regGet (s.readV i) e

/-- `VM <- v`. -/
def State.writeVm (s : State) (v : Word) : State := s.withCpu { s.cpu with vm := v }

/-- `VL <- v`. -/
def State.writeVl (s : State) (v : BitVec 7) : State := s.withCpu { s.cpu with vl := v }

/-- `M <- m`. -/
def State.writeM (s : State) (m : Mode) : State := s.withCpu { s.cpu with m := m }

/-- `vused <- true` (10_state.md R43). -/
def State.markVector (s : State) : State := s.withCpu { s.cpu with vused := true }

/-- `P <- P + n`, modulo 2^24 (00_scope.md R17). -/
def State.advance (s : State) (n : Nat) : State :=
  s.withCpu { s.cpu with p := s.cpu.p + BitVec.ofNat 24 n }

/-- `P <- target`. -/
def State.jump (s : State) (target : PAddr) : State := s.withCpu { s.cpu with p := target }

/-- A floating-point range error, if `bad` (60_exceptions.md R516). -/
def State.fpError (s : State) (bad : Bool) : State := if bad then s.withCpu s.cpu.raiseFpe else s

/-- Pass over `n` free values (00_scope.md R16 `draw`; log 2). -/
def State.drawn (s : State) (n : Nat) : State := { s with draws := s.draws + n }

/-- The n-th free value from here. -/
def State.drawAt (s : State) (n : Nat) : Word := Config.draw (s.draws + n)

/-! ## Memory cells -/

/-- The byte at a byte address: what an unlisted address reads as is 0 (log 8). -/
def Memory.readByte (m : Memory) (a : Nat) : Byte :=
  match m with
  | [] => 0
  | (x, b) :: rest => if x = a then b else Memory.readByte rest a

/-- The cells other than the one at `a`. -/
def Memory.erase (m : Memory) (a : Nat) : Memory := m.filter fun c => c.1 != a

/-- Put a cell at its place in the rising order. -/
def Memory.insertCell (m : Memory) (a : Nat) (v : Byte) : Memory :=
  match m with
  | [] => [(a, v)]
  | (x, b) :: rest => if x < a then (x, b) :: Memory.insertCell rest a v else (a, v) :: (x, b) :: rest

/-- Write a byte, keeping the canonical form: writing what an unlisted address reads as removes the cell. -/
def Memory.writeByte (m : Memory) (a : Nat) (v : Byte) : Memory :=
  if v = 0 then Memory.erase m a else Memory.insertCell (Memory.erase m a) a v

/-- `MemRead(a, 1)` (00_scope.md R15): byte 0 of the word is its leftmost 8 bits (log 7). -/
def Memory.readWord (m : Memory) (a : Nat) : Word :=
  Memory.readByte m (8 * a) ++ Memory.readByte m (8 * a + 1) ++ Memory.readByte m (8 * a + 2)
    ++ Memory.readByte m (8 * a + 3) ++ Memory.readByte m (8 * a + 4) ++ Memory.readByte m (8 * a + 5)
    ++ Memory.readByte m (8 * a + 6) ++ Memory.readByte m (8 * a + 7)

/-- `MemWrite(a, 1, v)` (R15) on the cells. -/
def Memory.writeWord (m : Memory) (a : Nat) (v : Word) : Memory :=
  let m := Memory.writeByte m (8 * a) (v.extractLsb' 56 8)
  let m := Memory.writeByte m (8 * a + 1) (v.extractLsb' 48 8)
  let m := Memory.writeByte m (8 * a + 2) (v.extractLsb' 40 8)
  let m := Memory.writeByte m (8 * a + 3) (v.extractLsb' 32 8)
  let m := Memory.writeByte m (8 * a + 4) (v.extractLsb' 24 8)
  let m := Memory.writeByte m (8 * a + 5) (v.extractLsb' 16 8)
  let m := Memory.writeByte m (8 * a + 6) (v.extractLsb' 8 8)
  Memory.writeByte m (8 * a + 7) (v.extractLsb' 0 8)

/-- `MemWrite(a, 1, v)` (R15): the word, and the record that it was written (20_memory.md R104; log 12). -/
def State.memWrite (s : State) (a : Nat) (v : Word) : State :=
  { s with mem := Memory.writeWord s.mem a v
           writeLog := (a, s.writeClock) :: s.writeLog.filter fun e => e.1 != a
           writeClock := s.writeClock + 1 }

/-- A list of word writes, in order; none stands for a write that does not happen. -/
def State.memWrites (s : State) (l : List (Option (Nat × Word))) : State :=
  match l with
  | [] => s
  | none :: rest => State.memWrites s rest
  | some (a, v) :: rest => State.memWrites (s.memWrite a v) rest

/-- The word was written since the CPU's last exchange (20_memory.md R104, 70_reset_and_hazards.md R592). -/
def State.stale (s : State) (a : Nat) : Bool :=
  s.writeLog.any fun e => e.1 == a && decide (s.cpu.intervalStart ≤ e.2)

/-- The word lies in [CA, CL) of an active channel (20_memory.md R103). -/
def State.channelBusy (s : State) (a : Nat) : Bool :=
  s.channels.any fun ch => ch.active && decide (ch.ca.toNat ≤ a ∧ a < ch.cl.toNat)

/-! ## Operand references (20_memory.md R86, R98) -/

/-- Relocation and limit check of a program-relative word address (R86): none is out of range (aborted). -/
def State.locate (s : State) (ea : Addr) : Except Stop (Option Nat) :=
  let abs := ea.toNat + s.cpu.dba.toNat
  if s.cpu.dla.toNat < abs then .ok none
  else if abs = s.cpu.dla.toNat then .error (.refuse .limitEquality)
  else if s.params.memWords ≤ abs then .error (.fault .beyondMemory)
  else if s.channelBusy abs then .error (.fault .channelRace)
  else .ok (some abs)

/-- `State.locate` of every element of a block reference, each checked on its own (R270, R278). -/
def State.locateAll (s : State) (eas : List Addr) : Except Stop (List (Option Nat)) :=
  match eas with
  | [] => .ok []
  | ea :: rest =>
    match s.locate ea with
    | .error e => .error e
    | .ok x =>
      match State.locateAll s rest with
      | .error e => .error e
      | .ok xs => .ok (x :: xs)

/-- Whether the set bits permit two references of these kinds to overlap (R98): a block read and a block write under
BDM, two block writes under CBW, a scalar and a block reference under SBO. -/
def Cpu.overlaps (c : Cpu) (x y : Ref) : Bool :=
  if x.block && y.block then (if x.write && y.write then c.cbw else (x.write || y.write) && c.m.bdm)
  else (x.block != y.block) && c.sbo

/-- Two references are unordered (R98): they may overlap, name one word, and one of them writes. -/
def Cpu.unordered (c : Cpu) (x y : Ref) : Bool := x.addr == y.addr && (x.write || y.write) && c.overlaps x y

/-- Remember a reference until the next CMR or exchange, each kind once for each word (log 13). -/
def addRef (r : Ref) (l : List Ref) : List Ref := if l.contains r then l else r :: l

/-- Make the references of one instruction: a race with an earlier one of this CPU not separated by CMR stops (R98). A race
with another CPU does not: DESIGN CHOICE (log 40), R100 and decision D26, by which a read returns the old or the new
value, are followed, not 93_implementation_defined.md V10, which refuses it. -/
def State.claim (s : State) (new : List Ref) : Except Stop State :=
  if new.any (fun x => s.cpu.refs.any fun y => s.cpu.unordered y x) then .error (.fault .overlapRace)
  else .ok (s.withCpu { s.cpu with refs := new.foldr addRef s.cpu.refs })

/-- The references of an instruction at the located addresses; an aborted reference names no word. -/
def refsOf (block write : Bool) (l : List (Option Nat)) : List Ref :=
  l.filterMap fun x => x.map fun a => { addr := a, block := block, write := write }

/-! ## Memory errors of reads (R93, 60_exceptions.md R519, R524; log 25) -/

/-- The errors that accompany one read of this step. -/
def State.errorsAt (s : State) (x : ReadSite) : List ReadError := s.readErrors.filter fun e => e.site == x

/-- One of the errors is uncorrectable. -/
def spoiled (l : List ReadError) : Bool := l.any fun e => e.kind == .uncorrectable

/-- What a read delivers: the word, or a draw `d` if an error of it is uncorrectable (R93). -/
def delivered (l : List ReadError) (d w : Word) : Word := if spoiled l then d else w

/-- The CPU after the errors of its reads (R519). -/
def Cpu.noteErrors (c : Cpu) (l : List ReadError) : Cpu := l.foldl (fun c e => c.noteMemError e.kind e.info) c

/-- The state after reads with these errors, which pass over `n` free values if one is uncorrectable. -/
def State.afterReads (s : State) (l : List ReadError) (n : Nat) : State :=
  (s.withCpu (s.cpu.noteErrors l)).drawn (if spoiled l then n else 0)

/-- `DataRead(ea)` of a scalar reference (R86): the word, and the state after the reference. -/
def State.dataRead (s : State) (ea : Addr) : Except Stop (Word × State) :=
  match s.locate ea with
  | .error e => .error e
  | .ok none => .ok (s.drawAt 0, (s.drawn 1).withCpu s.cpu.raiseOre)
  | .ok (some a) =>
    match s.claim [{ addr := a, block := false, write := false }] with
    | .error e => .error e
    | .ok t =>
      let l := s.errorsAt (.operand 0)
      .ok (delivered l (s.drawAt 0) (Memory.readWord t.mem a), t.afterReads l 1)

/-- `DataWrite(ea, v)` of a scalar reference (R86). -/
def State.dataWrite (s : State) (ea : Addr) (v : Word) : Except Stop State :=
  match s.locate ea with
  | .error e => .error e
  | .ok none => .ok (s.withCpu s.cpu.raiseOre)
  | .ok (some a) =>
    match s.claim [{ addr := a, block := false, write := true }] with
    | .error e => .error e
    | .ok t => .ok (t.memWrite a v)

/-- What element `n` of a block read delivers: none leaves its destination as it is. When some element is out of
range, every other destination is its old value or the word read, by a draw (R94); an aborted read delivers a draw. No
reference has more than 64 elements, so that the draw of a read with an uncorrectable error is one of its own. -/
def State.blockElem (s : State) (anyOut : Bool) (n : Nat) (x : Option Nat) : Option Word :=
  match x with
  | none => some (s.drawAt n)
  | some a =>
    if anyOut && (s.drawAt n).getLsbD 0 then none
    else some (delivered (s.errorsAt (.operand n)) (s.drawAt (64 + n)) (Memory.readWord s.mem a))

/-- `blockElem` of every element, numbered from `n`. -/
def State.blockElems (s : State) (anyOut : Bool) (n : Nat) (l : List (Option Nat)) : List (Option Word) :=
  match l with
  | [] => []
  | x :: rest => s.blockElem anyOut n x :: State.blockElems s anyOut (n + 1) rest

/-- The errors of the reads of a block reference, its elements numbered from `n`; an aborted element reads nothing. -/
def State.blockErrors (s : State) (n : Nat) (l : List (Option Nat)) : List ReadError :=
  match l with
  | [] => []
  | none :: rest => State.blockErrors s (n + 1) rest
  | some _ :: rest => s.errorsAt (.operand n) ++ State.blockErrors s (n + 1) rest

/-- Some element of a block reference is out of range. -/
def someOut (l : List (Option Nat)) : Bool := l.any Option.isNone

/-- The state after a block reference of `n` elements some of which were out of range: draws passed over, ORE raised
(R270, R278). -/
def State.afterBlock (s : State) (out : Bool) (n : Nat) : State :=
  if out then (s.drawn n).withCpu s.cpu.raiseOre else s

/-- A block read: what each element delivers, and the state after the references. DESIGN CHOICE (log 19): when some element
is out of range, one within the range counts as a reference, with its races and the errors of its read, also if a draw
leaves it untransferred. -/
def State.blockRead (s : State) (eas : List Addr) : Except Stop (List (Option Word) × State) :=
  match s.locateAll eas with
  | .error e => .error e
  | .ok l =>
    match s.claim (refsOf true false l) with
    | .error e => .error e
    | .ok t =>
      .ok (t.blockElems (someOut l) 0 l, (t.afterBlock (someOut l) l.length).afterReads (s.blockErrors 0 l) 128)

/-- What element `n` of a block write does. An aborted one writes nothing; when some element is out of range, any
other one may be left out, by a draw (R94); of the elements of a scatter to one word, each later one is written or
not by a draw (R282; `seen` are the words of the earlier ones, empty when the order is fixed). -/
def State.blockPut (s : State) (anyOut : Bool) (seen : List Nat) (n : Nat) (x : Option Nat) (v : Word) :
    Option (Nat × Word) :=
  match x with
  | none => none
  | some a => if (anyOut || seen.contains a) && (s.drawAt n).getLsbD 0 then none else some (a, v)

/-- `blockPut` of every element, numbered from `n`; `scatter` says that equal addresses are in no fixed order. -/
def State.blockPuts (s : State) (anyOut scatter : Bool) (seen : List Nat) (n : Nat) (l : List (Option Nat × Word)) :
    List (Option (Nat × Word)) :=
  match l with
  | [] => []
  | (x, v) :: rest =>
    s.blockPut anyOut seen n x v
      :: State.blockPuts s anyOut scatter (if scatter then x.toList ++ seen else seen) (n + 1) rest

/-- Two elements of a block write name one word. -/
def hasDuplicate (l : List (Option Nat)) : Bool :=
  match l with
  | [] => false
  | none :: rest => hasDuplicate rest
  | some a :: rest => rest.contains (some a) || hasDuplicate rest

/-- A block write of `vals` to the addresses `eas`, in increasing element order (R96) but for a scatter. An element within
the range counts as a reference also if a draw leaves it out (log 19). -/
def State.blockWrite (s : State) (scatter : Bool) (eas : List Addr) (vals : List Word) : Except Stop State :=
  match s.locateAll eas with
  | .error e => .error e
  | .ok l =>
    match s.claim (refsOf true true l) with
    | .error e => .error e
    | .ok t =>
      let u := t.memWrites (t.blockPuts (someOut l) scatter [] 0 (l.zip vals))
      let u := u.afterBlock (someOut l) l.length
      .ok (if !someOut l && scatter && hasDuplicate l then u.drawn l.length else u)

/-! ## The exchange package (10_state.md R56) and the exchange sequence (60_exceptions.md R531) -/

/-- A package as one image: bits 64 n to 64 n + 63 are word n. -/
abbrev PackageImage := BitVec 1024

/-- The ones of a slot. -/
def slotMask (sl : Slot) : PackageImage := BitVec.ofNat 1024 (2 ^ sl.width - 1) <<< sl.start

/-- Store a field (its low bits, as many as the slot is wide). -/
def imagePut (img : PackageImage) (sl : Slot) (v : Word) : PackageImage :=
  (img &&& ~~~slotMask sl) ||| ((v.setWidth 1024 <<< sl.start) &&& slotMask sl)

/-- Read a field, zero-extended to 64 bits. -/
def imageGet (img : PackageImage) (sl : Slot) : Word :=
  ((img &&& slotMask sl) >>> sl.start).setWidth 64

/-- Word `n` of the image. -/
def imageWord (img : PackageImage) (n : Nat) : Word := img.extractLsb' (64 * n) 64

/-- `n` words of memory from word `a` on, as an image of the low `64 n` bits. -/
def Memory.readImage (m : Memory) (a n : Nat) : PackageImage :=
  match n with
  | 0 => 0
  | k + 1 => Memory.readImage m a k ||| ((Memory.readWord m (a + k)).setWidth 1024 <<< (64 * k))

/-- The 16 writes of an image to the words from `a` on. -/
def State.writeImage (s : State) (a : Nat) (img : PackageImage) (n : Nat) : State :=
  match n with
  | 0 => s
  | k + 1 => (State.writeImage s a img k).memWrite (a + k) (imageWord img k)

/-- Sixteen drawn words: what the package holds where no field lies, and in the memory error data fields when no
error was recorded (R531 "else unspecified"; log 21). -/
def State.drawnImage (s : State) (n : Nat) : PackageImage :=
  match n with
  | 0 => 0
  | k + 1 => State.drawnImage s k ||| ((s.drawAt k).setWidth 1024 <<< (64 * k))

/-- The address of the CPU's package (10_state.md R37). -/
def Cpu.packageBase (c : Cpu) : Nat := 16 * c.xa.toNat

/-- What the outgoing package holds in each field (R531 `out`); none is an unspecified field. Base and limit
registers are stored in units of 2^BLGrain words (00_scope.md R7), A registers as they are read (R13). -/
def Cpu.field (c : Cpu) (grain : Nat) (f : XPField) : Option Word :=
  match f with
  | .pn => some (c.pn.setWidth 64)
  | .p => some (c.p.setWidth 64)
  | .iba => some ((c.iba >>> grain).setWidth 64)
  | .ila => some ((c.ila >>> grain).setWidth 64)
  | .dba => some ((c.dba >>> grain).setWidth 64)
  | .dla => some ((c.dla >>> grain).setWidth 64)
  | .xa => some (c.xa.setWidth 64)
  | .vl => some (c.vl.setWidth 64)
  | .cln => some (c.cln.setWidth 64)
  | .vnu => some ((BitVec.ofBool !c.vused).setWidth 64)
  | .ws => some ((BitVec.ofBool c.holding.isSome).setWidth 64)
  | .cbw => some ((BitVec.ofBool c.cbw).setWidth 64)
  | .sbo => some ((BitVec.ofBool c.sbo).setWidth 64)
  | .syndrome => c.memErr.map fun e => e.syndrome.setWidth 64
  | .readBank => c.memErr.map fun e => e.readBank.setWidth 64
  | .errType => c.memErr.map fun e => e.errType.setWidth 64
  | .port => c.memErr.map fun e => e.port.setWidth 64
  | .chipSelect => c.memErr.map fun e => e.chipSelect.setWidth 64
  | .readMode => c.memErr.map fun e => e.readMode.setWidth 64
  | .flag n => some ((BitVec.ofBool (c.f.get n)).setWidth 64)
  | .mode n => some ((BitVec.ofBool (c.m.get n)).setWidth 64)
  | .a i => some ((amask c.m.eam (regGet c.a i)).setWidth 64)
  | .s i => some (regGet c.s i)

/-- Put a list of fields into an image (`XPLayout.pack`). -/
def Cpu.packFields (c : Cpu) (lay : XPLayout) (grain : Nat) (fs : List XPField) (img : PackageImage) :
    PackageImage :=
  match fs with
  | [] => img
  | f :: rest =>
    Cpu.packFields c lay grain rest
      (match c.field grain f with
       | some v => imagePut img (lay.slot f) v
       | none => img)

/-- The outgoing package. That of a deadstart exchange is unspecified but for PN (70_reset_and_hazards.md R580). -/
def State.outgoing (s : State) : PackageImage :=
  s.cpu.packFields s.params.xp s.params.blGrain (if s.cpu.deadstart then [.pn] else XPField.all) (s.drawnImage 16)

/-- One field of a package under a layout (`XPLayout.unpack`). -/
def readField (lay : XPLayout) (img : PackageImage) (f : XPField) : Word := imageGet img (lay.slot f)

/-- A one-bit field. -/
def readFieldBit (lay : XPLayout) (img : PackageImage) (f : XPField) : Bool := (readField lay img f).getLsbD 0

/-- The F register of a package. -/
def readFieldFlags (lay : XPLayout) (img : PackageImage) : Flags :=
  { icp := readFieldBit lay img (.flag .icp)
    dl := readFieldBit lay img (.flag .dl)
    pci := readFieldBit lay img (.flag .pci)
    mcu := readFieldBit lay img (.flag .mcu)
    fpe := readFieldBit lay img (.flag .fpe)
    ore := readFieldBit lay img (.flag .ore)
    pre := readFieldBit lay img (.flag .pre)
    me := readFieldBit lay img (.flag .me)
    ioi := readFieldBit lay img (.flag .ioi)
    eex := readFieldBit lay img (.flag .eex)
    nex := readFieldBit lay img (.flag .nex) }

/-- The M register of a package. -/
def readFieldMode (lay : XPLayout) (img : PackageImage) : Mode :=
  { ps := readFieldBit lay img (.mode .ps)
    fps := readFieldBit lay img (.mode .fps)
    bdm := readFieldBit lay img (.mode .bdm)
    ior := readFieldBit lay img (.mode .ior)
    ifp := readFieldBit lay img (.mode .ifp)
    ium := readFieldBit lay img (.mode .ium)
    icm := readFieldBit lay img (.mode .icm)
    eam := readFieldBit lay img (.mode .eam)
    sei := readFieldBit lay img (.mode .sei)
    imm := readFieldBit lay img (.mode .imm)
    mm := readFieldBit lay img (.mode .mm) }

/-- A base or limit field, back in words. -/
def readFieldBase (lay : XPLayout) (grain : Nat) (img : PackageImage) (f : XPField) : BitVec 32 :=
  (readField lay img f).setWidth 32 <<< grain

/-- The registers an incoming package gives a CPU (R531 `in`); PN, VNU, WS and the memory error data fields of the
package are ignored, B, T, V, VM, the clock and the request bits are kept, `vused` is cleared, the holding state is
left, all earlier references are complete, and a new execution interval begins at write clock `now`. A registers are
written as R13 says, by the address mode the package brings (log 39). -/
def Cpu.load (c : Cpu) (lay : XPLayout) (grain now : Nat) (img : PackageImage) : Cpu :=
  { c with
    p := (readField lay img .p).setWidth 24
    iba := readFieldBase lay grain img .iba
    ila := readFieldBase lay grain img .ila
    dba := readFieldBase lay grain img .dba
    dla := readFieldBase lay grain img .dla
    xa := (readField lay img .xa).setWidth 8
    vl := (readField lay img .vl).setWidth 7
    cln := (readField lay img .cln).setWidth 4
    f := readFieldFlags lay img
    m := readFieldMode lay img
    cbw := readFieldBit lay img .cbw
    sbo := readFieldBit lay img .sbo
    a := Vector.ofFn fun i =>
      amask (readFieldBit lay img (.mode .eam)) ((readField lay img (.a (BitVec.ofNat 3 i.val))).setWidth 32)
    s := Vector.ofFn fun i => readField lay img (.s (BitVec.ofNat 3 i.val))
    vused := false
    memErr := none
    deadstart := false
    holding := none
    refs := []
    intervalStart := now }

/-- The words of the package with those whose read has an uncorrectable error replaced by draws (R93). -/
def State.deliveredImage (s : State) (img : PackageImage) (n : Nat) : PackageImage :=
  match n with
  | 0 => 0
  | k + 1 =>
    State.deliveredImage s img k |||
      ((delivered (s.errorsAt (.package k)) (s.drawAt (16 + k)) (imageWord img k)).setWidth 1024 <<< (64 * k))

/-- The incoming package (R531 `in`): the 16 words at 16 * XA as they are read. -/
def State.package (s : State) : PackageImage :=
  s.deliveredImage (Memory.readImage s.mem s.cpu.packageBase 16) 16

/-- The errors of the reads of the first `n` words of the package. -/
def State.packageErrors (s : State) (n : Nat) : List ReadError :=
  match n with
  | 0 => []
  | k + 1 => State.packageErrors s k ++ s.errorsAt (.package k)

/-- The machine after the sixteen writes of an exchange and the loading of `img`. Memory errors of the exchange's own
reads are seen by the incoming program (R534; log 25). -/
def State.swapped (s : State) (img : PackageImage) : State :=
  let t := (s.writeImage s.cpu.packageBase s.outgoing 16).drawn 32
  t.withCpu ((t.cpu.load t.params.xp t.params.blGrain t.writeClock img).noteErrors (s.packageErrors 16))

/-- Some word of the package lies in an active channel's range (20_memory.md R90, R103). -/
def State.packageBusy (s : State) : Bool :=
  (List.range 16).any fun n => s.channelBusy (s.cpu.packageBase + n)

/-- The exchange sequence (R531): taking an exception and returning from one are both this. The 16 words are read
before any is written. -/
def State.exchangeSequence (s : State) : Out :=
  let lay := s.params.xp
  let img := s.package
  if s.params.memWords ≤ s.cpu.packageBase + 15 then .fault .beyondMemory
  else if s.packageBusy then .fault .channelRace
  else if 64 < ((readField lay img .vl).setWidth 7 : BitVec 7).toNat then .refused .packageVl
  else if s.params.ncluster < ((readField lay img .cln).setWidth 4 : BitVec 4).toNat then .refused .packageCln
  else .next (s.swapped img)

end Sys2Proof.Machine
end

