-- ==== Sys2Proof/Machine/Operands.lean ====
section
/-! DEFINITION. Every operand form: the special operand values of Table 2-3 (00_scope.md R14), effective addresses
(42_memory_transfer.md R257, R262, R270, R279 to R282), the vector frame (41_interregister_transfer.md R205), the
shared registers (R235), and the status register (10_state.md R49). -/

namespace Sys2Proof.Machine

open Sys2Proof

/-! ## Special operand values (00_scope.md R14) -/

/-- `Ah_val`. -/
def State.ahVal (s : State) (h : BitVec 3) : Addr := if h = 0 then 0 else s.readA h

/-- `Aj_val`. -/
def State.ajVal (s : State) (j : BitVec 3) : Addr := if j = 0 then 0 else s.readA j

/-- `Ak_val`. -/
def State.akVal (s : State) (k : BitVec 3) : Addr := if k = 0 then 1 else s.readA k

/-- `Sj_val`. -/
def State.sjVal (s : State) (j : BitVec 3) : Word := if j = 0 then 0 else s.readS j

/-- `Sk_val`: 2^63 for k = 0. -/
def State.skVal (s : State) (k : BitVec 3) : Word := if k = 0 then 0x8000000000000000 else s.readS k

/-! ## Endings -/

/-- The instruction is done: `P <- P + n`. -/
def State.done (s : State) (n : Nat) : Out := .next (s.advance n)

/-! ## Effective addresses -/

/-- The program-relative address of a scalar memory instruction (R257), modulo 2^AW. -/
def State.scalarAddr (s : State) (h : BitVec 3) (disp : Addr) : Addr := amask s.cpu.m.eam (s.ahVal h + disp)

/-- The X-mode displacement (R262): refused when bit 21 is set. -/
def disp22 (jkm : BitVec 22) : Option Addr := if jkm.getLsbD 21 then none else some (jkm.setWidth 32)

/-- Elements 0 to n - 1 of a block transfer: `(A[0] + e) mod 2^AW` (R270). -/
def State.blockAddrs (s : State) (n : Nat) : List Addr :=
  (List.range n).map fun e => amask s.cpu.m.eam (s.readA 0 + BitVec.ofNat 32 e)

/-- Elements of a strided vector transfer: `(A[0] + e * st) mod 2^AW` (R279, R281). -/
def State.strideAddrs (s : State) (st : Addr) : List Addr :=
  (List.range s.cpu.vl.toNat).map fun e => amask s.cpu.m.eam (s.readA 0 + BitVec.ofNat 32 e * st)

/-- Elements of a gather or scatter: `(A[0] + V[k][e]) mod 2^AW` (R280, R282). -/
def State.indexAddrs (s : State) (k : BitVec 3) : List Addr :=
  (List.range s.cpu.vl.toNat).map fun e =>
    amask s.cpu.m.eam (s.readA 0 + (s.velem k (BitVec.ofNat 6 e)).setWidth 32)

/-- The count of a block transfer fits the register file from register `jk` on (R270). -/
def blockFits (jk : BitVec 6) (count : Addr) : Bool := decide (count.toNat ≤ 64 ∧ jk.toNat + count.toNat ≤ 64)

/-- Registers `jk` to `jk + n - 1` of a file. -/
def blockRegs {α : Type} (v : Vector α (2 ^ 6)) (jk : BitVec 6) (n : Nat) : List α :=
  (List.range n).map fun e => regGet v (jk + BitVec.ofNat 6 e)

/-- What a block read leaves in a file of 64: element `e - jk` of the list in register `e`, where there is one and it
delivers a value. -/
def blockLoaded {α : Type} (v : Vector α (2 ^ 6)) (jk : Nat) (conv : Word → α) (l : List (Option Word)) :
    Vector α (2 ^ 6) :=
  Vector.ofFn fun r =>
    if r.val < jk then v[r.val]
    else match l[r.val - jk]? with
      | some (some w) => conv w
      | _ => v[r.val]

/-! ## The vector frame (41 R205) -/

/-- Elements below VL from `f`, the others of Vi kept. -/
def State.vectorResult (s : State) (i : BitVec 3) (f : BitVec 6 → Word) : Vector Word (2 ^ 6) :=
  Vector.ofFn fun e => if e.val < s.cpu.vl.toNat then f (BitVec.ofNat 6 e.val) else (s.readV i)[e.val]

/-- An instruction of the frame whose result element e is `f e` (R205). -/
def State.vectorOp (s : State) (i : BitVec 3) (f : BitVec 6 → Word) : Out :=
  if s.cpu.vl = 0 then .refused .vlZero
  else ((s.writeV i (s.vectorResult i f)).markVector).done 1

/-- Whether some element below VL has the property. -/
def State.anyElem (s : State) (p : BitVec 6 → Bool) : Bool :=
  (List.range s.cpu.vl.toNat).any fun e => p (BitVec.ofNat 6 e)

/-- A floating-point instruction of the frame: the range errors of its elements are raised together; all elements are
completed (60_exceptions.md R516). -/
def State.vectorFp (s : State) (i : BitVec 3) (f : BitVec 6 → Word × Bool) : Out :=
  if s.cpu.vl = 0 then .refused .vlZero
  else (((s.writeV i (s.vectorResult i fun e => (f e).1)).markVector).fpError (s.anyElem fun e => (f e).2)).done 1

/-! ## Shared registers (41 R235) -/

/-- The cluster the CPU can reach. -/
def State.cluster (s : State) : Cluster := regGet s.clusters s.cpu.cln

/-- Replace the cluster the CPU can reach. -/
def State.writeCluster (s : State) (c : Cluster) : State := { s with clusters := regPut s.clusters s.cpu.cln c }

/-- A shared-register instruction: refused when CLN is 0. -/
def State.shared (s : State) (k : Cluster → Out) : Out :=
  if s.cpu.cln = 0 then .refused .noCluster else k s.cluster

/-- The bit of `Cluster.sm` that holds a semaphore: semaphore n is bit 31 - n. -/
def smBit (jk : BitVec 6) : BitVec 32 := 0x80000000 >>> (jk.toNat % 32)

/-- A semaphore is 1. -/
def Cluster.smIsSet (c : Cluster) (jk : BitVec 6) : Bool := c.sm &&& smBit jk != 0

/-- A semaphore becomes 1. -/
def Cluster.smSet (c : Cluster) (jk : BitVec 6) : Cluster := { c with sm := c.sm ||| smBit jk }

/-- A semaphore becomes 0. -/
def Cluster.smClear (c : Cluster) (jk : BitVec 6) : Cluster := { c with sm := c.sm &&& ~~~smBit jk }

/-! ## The status register (10_state.md R49, 41 R217) -/

/-- A bit at a position of the S register. -/
def srBit (pos : Nat) (b : Bool) : Word := if b then 1 <<< pos else 0

/-- The word 073i01 delivers; positions the layout does not use are 0. -/
def Cpu.statusWord (c : Cpu) (l : SRLayout) : Word :=
  srBit l.clustered (c.cln != 0) ||| srBit l.ume c.umeSeen ||| srBit l.cme c.cmeSeen ||| srBit l.ps c.m.ps
    ||| srBit l.fps c.m.fps ||| srBit l.ifp c.m.ifp ||| srBit l.ior c.m.ior ||| srBit l.bdm c.m.bdm
    ||| (c.pn.setWidth 64 <<< l.pn) ||| (c.cln.setWidth 64 <<< l.cln)

/-! ## Privilege (49_monitor_mode.md R470) -/

/-- A privileged instruction: a no-operation of one parcel in user mode. -/
def State.monitorOnly (s : State) (k : Out) : Out := if s.cpu.m.mm then k else s.done 1

end Sys2Proof.Machine
end

