-- ==== Sys2Proof/Machine/BitCount.lean ====
section
/-! DEFINITION. Bit count instructions (47_bit_count.md) and the counts they and the floating-point units use. -/

namespace Sys2Proof.Machine

open Sys2Proof

/-- The number of ones in the low `n` bits of `v`. -/
def onesIn (v n : Nat) : Nat :=
  match n with
  | 0 => 0
  | k + 1 => onesIn v k + (if v.testBit k then 1 else 0)

/-- The number of zeros to the left of the leftmost one, counted from bit n - 1; n when there is none. -/
def leadingZeros (v n : Nat) : Nat :=
  match n with
  | 0 => 0
  | k + 1 => if v.testBit k then 0 else leadingZeros v k + 1

/-- `popcount` (00_scope.md R16). -/
def popcount (w : Word) : Nat := onesIn w.toNat 64

/-- `lzcount64` (00_scope.md R16): 64 for 0. -/
def lzcount64 (w : Word) : Nat := leadingZeros w.toNat 64

/-- 026ij0 (R430). -/
def execAPop (i j : BitVec 3) (s : State) : Out := (s.writeA i (BitVec.ofNat 32 (popcount (s.sjVal j)))).done 1

/-- 026ij1 (R431). -/
def execAParity (i j : BitVec 3) (s : State) : Out :=
  (s.writeA i (BitVec.ofNat 32 (popcount (s.sjVal j) % 2))).done 1

/-- 027ij0 (R432). -/
def execALzc (i j : BitVec 3) (s : State) : Out := (s.writeA i (BitVec.ofNat 32 (lzcount64 (s.sjVal j)))).done 1

/-- 174ij1 (R433). -/
def execVPop (i j : BitVec 3) (s : State) : Out :=
  s.vectorOp i fun e => BitVec.ofNat 64 (popcount (s.velem j e))

/-- 174ij2 (R434). -/
def execVParity (i j : BitVec 3) (s : State) : Out :=
  s.vectorOp i fun e => BitVec.ofNat 64 (popcount (s.velem j e) % 2)

end Sys2Proof.Machine
end

