-- ==== Sys2Proof/Machine/Branch.lean ====
section
/-! DEFINITION. Branches, return jump and exits (48_branch.md). A taken branch does not check its target (R440). -/

namespace Sys2Proof.Machine

open Sys2Proof

/-- A conditional branch of 2 parcels (R440 (b)). -/
def State.branchIf (s : State) (taken : Bool) (target : PAddr) : Out :=
  if taken then .next (s.jump target) else s.done 2

/-- 0050jk (R441): refused when the register holds more than 24 bits. -/
def execJB (jk : BitVec 6) (s : State) : Out :=
  if 2 ^ 24 ≤ (s.readB jk).toNat then .refused .branchTooWide else .next (s.jump ((s.readB jk).setWidth 24))

/-- 006ijkm (R442). -/
def execJExp (exp : BitVec 24) (s : State) : Out := .next (s.jump exp)

/-- 010ijkm (R443): actual (A0). -/
def execJaz (exp : BitVec 24) (s : State) : Out := s.branchIf (s.readA 0 == 0) exp

/-- 011ijkm (R444). -/
def execJan (exp : BitVec 24) (s : State) : Out := s.branchIf (s.readA 0 != 0) exp

/-- 012ijkm (R445): the sign is bit AW - 1. -/
def execJap (exp : BitVec 24) (s : State) : Out := s.branchIf (!asign s.cpu.m.eam (s.readA 0)) exp

/-- 013ijkm (R446). -/
def execJam (exp : BitVec 24) (s : State) : Out := s.branchIf (asign s.cpu.m.eam (s.readA 0)) exp

/-- 014ijkm (R447): actual (S0), all 64 bits. -/
def execJsz (exp : BitVec 24) (s : State) : Out := s.branchIf (s.readS 0 == 0) exp

/-- 015ijkm (R448). -/
def execJsn (exp : BitVec 24) (s : State) : Out := s.branchIf (s.readS 0 != 0) exp

/-- 016ijkm (R449). -/
def execJsp (exp : BitVec 24) (s : State) : Out := s.branchIf (!(s.readS 0).getLsbD 63) exp

/-- 017ijkm (R450). -/
def execJsm (exp : BitVec 24) (s : State) : Out := s.branchIf ((s.readS 0).getLsbD 63) exp

/-- 007ijkm (R452): B00 gets the address of the next instruction. -/
def execRExp (exp : BitVec 24) (s : State) : Out :=
  .next ((s.writeB 0 ((s.cpu.p + 2).setWidth 32)).jump exp)

/-- 004000 (R453): P moves past the instruction, NEX is set in user mode, the exchange takes place in any mode. -/
def execEx (s : State) : Out :=
  let t := s.advance 1
  (t.withCpu t.cpu.raiseNex).exchangeSequence

/-- 000000 (R454): as EX, with EEX, set in user mode and in monitor mode under IMM. -/
def execErr (s : State) : Out :=
  let t := s.advance 1
  (t.withCpu t.cpu.raiseEex).exchangeSequence

end Sys2Proof.Machine
end

