-- ==== Sys2Proof/Machine/FloatUnit.lean ====
section
/-! DEFINITION. The floating-point units (44_floating_point.md R310 to R321, R335): what the source fixes of each
result function is computed, what it leaves to the instance is an opaque function of Config confined to the
constraints of its rule, so that every instance R312 allows, and no other, is a value of the opaque functions
(log 16). Coefficients are natural numbers below 2^48 while they are computed. -/

namespace Sys2Proof.Machine

open Sys2Proof

/-! ## Format (R310) -/

/-- `sgn`. -/
def fpSign (w : Word) : Bool := w.getLsbD 63

/-- `ex`. -/
def fpExp (w : Word) : Nat := (w.extractLsb' 48 15).toNat

/-- `co`. -/
def fpCoef (w : Word) : Nat := (w.extractLsb' 0 48).toNat

/-- `pack(s, x, c)`. -/
def fpPack (s : Bool) (x : Nat) (c : BitVec 48) : Word := BitVec.ofBool s ++ BitVec.ofNat 15 x ++ c

/-- A word with the sign bit set and a zero coefficient (R313). -/
def isNegZero (w : Word) : Bool := fpSign w && fpCoef w == 0

/-- Bit 47 of the coefficient is set (R311). -/
def isNormal (w : Word) : Bool := decide (2 ^ 47 ≤ fpCoef w)

/-- The word with bit 63 inverted: the second operand of a subtract (R313). -/
def fpNegate (w : Word) : Word := w ^^^ 0x8000000000000000

/-- Raw zero. -/
def rawZero : FPRaw := { sign := false, exp := 0, coef := 0 }

/-! ## Range check (R319) -/

/-- `range_am`: the result word and whether there is a range error. -/
def rangeAm (r : FPRaw) : Word × Bool :=
  if r.coef = 0 ∧ r.exp = 0 ∧ r.sign = false then (0, false)
  else if 0o60000 ≤ r.exp then (fpPack r.sign 0o60000 r.coef, true)
  else if r.exp ≤ 0o17777 then (0, false)
  else (fpPack r.sign r.exp.toNat r.coef, false)

/-! ## Sum (R313) -/

/-- Step 3 of `fadd_ref`: normalize. -/
def faddNormal (s : Bool) (x : Nat) (c : Nat) : FPRaw :=
  if c = 0 then rawZero
  else
    let z := leadingZeros c 48
    { sign := s, exp := (x : Int) - z, coef := BitVec.ofNat 48 (c * 2 ^ z) }

/-- `fadd_ref`. -/
def faddRef (a b : Word) : FPRaw :=
  let x := max (fpExp a) (fpExp b)
  let ca := fpCoef a / 2 ^ (x - fpExp a)
  let cb := fpCoef b / 2 ^ (x - fpExp b)
  if fpSign a = fpSign b then
    let t := ca + cb
    if 2 ^ 48 ≤ t then faddNormal (fpSign a) (x + 1) (t / 2) else faddNormal (fpSign a) x t
  else if cb ≤ ca then faddNormal (fpSign a) x (ca - cb)
  else faddNormal (fpSign b) x (cb - ca)

/-- An operand for which R313 (1) fixes the sum: exponent in range, or the all-zero word. -/
def addInRange (w : Word) : Bool := w == 0 || decide (0o20000 ≤ fpExp w ∧ fpExp w ≤ 0o57777)

/-- A raw result confined to R313 (2) and (3): normalized if nonzero, raw zero if zero unless a negative zero came
in. -/
def faddConfine (a b : Word) (r : FPRaw) : FPRaw :=
  if r.coef = 0 then (if isNegZero a || isNegZero b then r else rawZero)
  else { r with coef := r.coef ||| BitVec.ofNat 48 (2 ^ 47) }

/-- `FPConfig.fadd`. Opposite operands give the raw zero whatever they are: that is what R325 says of the difference
of equal operands, and a sum is a function of its operands (R312; log 38). -/
def fadd (a b : Word) : FPRaw :=
  if b = fpNegate a then rawZero
  else if !isNegZero a && !isNegZero b && addInRange a && addInRange b then faddRef a b
  else faddConfine a b (Config.fadd a b)

/-! ## Products (R314 to R316) -/

/-- Both exponent fields are zero: the integer product (R335). -/
def bothZeroExp (a b : Word) : Bool := fpExp a == 0 && fpExp b == 0

/-- The operand that comes first in the order in which the opaque functions see them: products commute (R314 (3)). -/
def mulFirst (a b : Word) : Word := if a.toNat ≤ b.toNat then a else b

/-- The operand that comes second. -/
def mulSecond (a b : Word) : Word := if a.toNat ≤ b.toNat then b else a

/-- The sum of the exponents, biased (R314). -/
def mulExp (a b : Word) : Int := (fpExp a : Int) + fpExp b - 0o40000

/-- The sign of a product: the rule R314 (1) when both exponent fields are nonzero, a zero coefficient included,
though R310 speaks of no negative zero there (log 37). With a zero exponent field it is `free`, but of a zero
coefficient (`zero`) it is set only if an operand is a negative zero (R310). -/
def mulSign (a b : Word) (free zero : Bool) : Bool :=
  if fpExp a != 0 && fpExp b != 0 then fpSign a ^^ fpSign b
  else free && (!zero || isNegZero a || isNegZero b)

/-- A kept value within one unit, by a choice: none when it would round up past `top` (R314 (2)). -/
def withinOne (kept top : Nat) (d : BitVec 2) : Option Nat :=
  match d.toNat with
  | 1 => if kept + 1 < top then some (kept + 1) else none
  | 2 => some (kept - 1)
  | _ => some kept

/-- The one-place shift: the exact product of two normalized coefficients has 95 bits, not 96 (R314). -/
def mulShift (a b : Word) : Bool := decide (fpCoef a * fpCoef b < 2 ^ 95)

/-- Both coefficients are normalized. -/
def bothNormal (a b : Word) : Bool := isNormal a && isNormal b

/-- Both coefficients are normalized and both exponent fields are nonzero: R314 (2) fixes the exponent and, within
one unit, the coefficient. -/
def mulFixed (a b : Word) : Bool := fpExp a != 0 && fpExp b != 0 && bothNormal a b

/-- The raw exponent when `mulFixed` (R314 (2)). -/
def mulFixedExp (a b : Word) : Int := if mulShift a b then mulExp a b - 1 else mulExp a b

/-- The number of product bits below the kept 48. -/
def mulDropped (a b : Word) : Nat := if mulShift a b then 47 else 48

/-- The raw exponent of a product: the sum, or one less when the one-place shift is made (R314 (6)). -/
def mulExpOf (a b : Word) (shift : Bool) : Int := if shift then mulExp a b - 1 else mulExp a b

/-- The largest coefficient of a product of which an operand is not normalized: it is not normalized (R311), and it is
at most one unit above the product, shifted one place at most (R314 (5); only for nonzero exponent fields). -/
def unnormalTop (a b : Word) (shift : Bool) : Nat :=
  if fpExp a != 0 && fpExp b != 0 then
    min (2 ^ 47 - 1) (fpCoef a * fpCoef b / 2 ^ (if shift then 47 else 48) + 1)
  else 2 ^ 47 - 1

/-- The coefficient of a product that R314 (2) does not fix, from a free one `c`: zero for a zero coefficient (6), not
normalized further than (5) and R311 allow. -/
def looseCoef (a b : Word) (shift : Bool) (c : Nat) : Nat :=
  if fpCoef a = 0 ∨ fpCoef b = 0 then 0
  else if bothNormal a b then c
  else min c (unnormalTop a b shift)

/-- A free product confined to R314 (1), (5) and (6), R310 and R311. -/
def mulLoose (a b : Word) (shift : Bool) (r : FPRaw) : FPRaw :=
  let c := looseCoef a b shift r.coef.toNat
  { sign := mulSign a b r.sign (c == 0), exp := mulExpOf a b shift, coef := BitVec.ofNat 48 c }

/-- `FPConfig.fmul` for operands in the opaque functions' order (R314). -/
def fmulOrdered (a b : Word) : FPRaw :=
  let p := fpCoef a * fpCoef b
  let loose := mulLoose a b (Config.fmulBorrow a b) (Config.fmul a b)
  if mulFixed a b then
    let kept := p / 2 ^ mulDropped a b
    let c := if p % 2 ^ mulDropped a b = 0 then some kept else withinOne kept (2 ^ 48) (Config.fmulDelta a b)
    match c with
    | some c => { sign := mulSign a b false false, exp := mulFixedExp a b, coef := BitVec.ofNat 48 c }
    | none => loose
  else loose

/-- `FPConfig.fmul` (R314). -/
def fmul (a b : Word) : FPRaw := fmulOrdered (mulFirst a b) (mulSecond a b)

/-- `FPConfig.fmul_r` for ordered operands (R315): exact for a zero remainder only when there is no one-place shift;
for operands that are not both normalized as the unrounded product (log 17). -/
def fmulROrdered (a b : Word) : FPRaw :=
  let p := fpCoef a * fpCoef b
  let r := Config.fmulR a b
  if mulFixed a b then
    let kept := p / 2 ^ mulDropped a b
    let c := if p % 2 ^ mulDropped a b = 0 ∧ mulShift a b = false then some kept
      else withinOne kept (2 ^ 48) (Config.fmulRDelta a b)
    match c with
    | some c => { sign := mulSign a b false false, exp := mulFixedExp a b, coef := BitVec.ofNat 48 c }
    | none => { r with sign := mulSign a b false false }
  else mulLoose a b (Config.fmulRBorrow a b) r

/-- `FPConfig.fmul_r` (R315). -/
def fmulR (a b : Word) : FPRaw := fmulROrdered (mulFirst a b) (mulSecond a b)

/-- A half-precision coefficient: 29 bits above 19 zeros (R316). -/
def halfCoef (c : Nat) : BitVec 48 := BitVec.ofNat 48 (c * 2 ^ 19)

/-- A value within one unit of `k`, below `top`, by a choice (`k` is at most `top`). -/
def nearBelow (k top : Nat) (d : BitVec 2) : Nat := min ((withinOne k top d).getD k) (top - 1)

/-- Whether a half-precision product of which an operand is not normalized is shifted one place: by a choice, unless
the shift would normalize it (R311; log 17). -/
def halfShift (a b : Word) : Bool := Config.fmulHBorrow a b && decide (fpCoef a * fpCoef b / 2 ^ 66 ≤ 2 ^ 28)

/-- A half-precision product that R316 does not fix as a product of normalized operands with nonzero exponent fields:
its 29 bits are within one of the upper 29 of the product, normalized as R314 normalizes one (log 17). -/
def halfLoose (a b : Word) (free : Bool) : FPRaw :=
  let p := fpCoef a * fpCoef b
  let d := Config.fmulHDelta a b
  let shift := if bothNormal a b then Config.fmulHBorrow a b else halfShift a b
  let c := if p = 0 then 0
    else if bothNormal a b then nearBelow (p / 2 ^ (mulDropped a b + 19)) (2 ^ 29) d
    else nearBelow (p / 2 ^ (if halfShift a b then 66 else 67)) (2 ^ 28) d
  { sign := mulSign a b free (c == 0), exp := mulExpOf a b shift, coef := halfCoef c }

/-- `FPConfig.fmul_h` for ordered operands (R316). The bound on the 29 bits has no exemption: a choice that would carry
out of them leaves them all ones (log 17). -/
def fmulHOrdered (a b : Word) : FPRaw :=
  if mulFixed a b then
    let kept := fpCoef a * fpCoef b / 2 ^ (mulDropped a b + 19)
    { sign := mulSign a b false false
      exp := mulFixedExp a b
      coef := halfCoef (nearBelow kept (2 ^ 29) (Config.fmulHDelta a b)) }
  else halfLoose a b (Config.fmulHSign a b)

/-- `FPConfig.fmul_h` (R316). -/
def fmulH (a b : Word) : FPRaw := fmulHOrdered (mulFirst a b) (mulSecond a b)

/-! ## Integer product (R335) -/

/-- The low 24 coefficient bits of both operands are 0: the integer product is exact. -/
def intmulExact (a b : Word) : Bool := fpCoef a % 2 ^ 24 == 0 && fpCoef b % 2 ^ 24 == 0

/-- A natural number within one of `k`, below 2^48, by a choice. -/
def near48 (k : Nat) (d : BitVec 2) : Nat := (withinOne k (2 ^ 48) d).getD k

/-- `intmul`; `d` is the draw of an inexact product, within one of the product's upper 48 bits as R335 has it, where
93_implementation_defined.md U5 would allow any value (DESIGN CHOICE, log 42). The sign is the exclusive OR even of a zero product, as R335 writes
it, though R310 speaks of no negative zero there (log 37). -/
def intmul (a b d : Word) : Word :=
  let k := fpCoef a * fpCoef b / 2 ^ 48
  fpPack (fpSign a ^^ fpSign b) 0 (BitVec.ofNat 48 (if intmulExact a b then k else near48 k (d.setWidth 2)))

/-! ## The multiply unit's words -/

/-- The result of 064, 160 and 161 on one pair (R330). -/
def mulWord (a b d : Word) : Word × Bool :=
  if bothZeroExp a b then (intmul a b d, false) else rangeAm (fmul a b)

/-- One pair takes a draw: an inexact integer product. -/
def mulDraws (a b : Word) : Bool := bothZeroExp a b && !intmulExact a b

/-- The instance's word for two operands with zero exponent fields (R335), confined to what holds of every product: it
is normalized only if both operands are (R311), and no negative zero unless an operand is one (R310). -/
def intLoose (a b w : Word) : Word :=
  let c := if bothNormal a b then fpCoef w else fpCoef w % 2 ^ 47
  fpPack (fpSign w && (c != 0 || isNegZero a || isNegZero b)) (fpExp w) (BitVec.ofNat 48 c)

/-- The result of 066, 164 and 165 on one pair (R332); two zero exponents: the instance's word, no error (R335). -/
def mulWordR (a b : Word) : Word × Bool :=
  if bothZeroExp a b then (intLoose a b (Config.fmulRInt (mulFirst a b) (mulSecond a b)), false)
  else rangeAm (fmulR a b)

/-- The result of 065, 162 and 163 on one pair (R331); two zero exponents: the instance's word, whose low 19 coefficient
bits are 0 like those of every half-precision result (R316, R331), no error (R335). -/
def mulWordH (a b : Word) : Word × Bool :=
  if bothZeroExp a b then
    (intLoose a b (Config.fmulHInt (mulFirst a b) (mulSecond a b) >>> 19 <<< 19), false)
  else rangeAm (fmulH a b)

/-- The result of the add unit on one pair (R324). -/
def addWord (a b : Word) : Word × Bool := rangeAm (fadd a b)

/-- The result of the subtract instructions on one pair (R325). -/
def subWord (a b : Word) : Word × Bool := rangeAm (fadd a (fpNegate b))

/-! ## Reciprocal approximation (R318, R321) -/

/-- The operand with bit 47 taken as 1 (R318). -/
def forceNormal (a : Word) : Word := a ||| BitVec.ofNat 64 (2 ^ 47)

/-- The operand's exponent is in the range for which R318 and R321 give a reciprocal. -/
def recipInRange (a : Word) : Bool := decide (0o20002 ≤ fpExp a ∧ fpExp a ≤ 0o60001)

/-- R318's constraints on a raw reciprocal of a normalized operand: sign, normalized, and a relative error below
2^-29: with e = x + ex(a) - 2 * 40000 octal, |c * co(a) * 2^e - 2^96| < 2^67. -/
def recipOk (a : Word) (r : FPRaw) : Bool :=
  let e := r.exp + fpExp a - 0o100000
  r.sign == fpSign a && decide (2 ^ 47 ≤ r.coef.toNat) && decide (0 ≤ e ∧ e ≤ 2)
    && decide (((r.coef.toNat * fpCoef a * 2 ^ e.toNat : Nat) - (2 ^ 96 : Nat) : Int).natAbs < 2 ^ 67)

/-- A reciprocal with as many correct bits as the format holds, for an operand the free function misses. -/
def recipExact (a : Word) : FPRaw :=
  if fpCoef a = 2 ^ 47 then { sign := fpSign a, exp := 0o100002 - fpExp a, coef := BitVec.ofNat 48 (2 ^ 47) }
  else { sign := fpSign a, exp := 0o100001 - fpExp a, coef := BitVec.ofNat 48 (2 ^ 95 / fpCoef a) }

/-- `FPConfig.frecip` (R318): within the constraints for an operand in range, free for the others. -/
def frecip (a : Word) : FPRaw :=
  let a := forceNormal a
  let r := Config.frecip a
  if recipInRange a && !recipOk a r then recipExact a else r

/-- `range_recip` (R321). The sign and the low 47 coefficient bits of an error result are the instance's, also where they make
a negative zero, of which R310 says that no unit generates it: DESIGN CHOICE (log 37). -/
def recipWord (a : Word) : Word × Bool :=
  let r := frecip a
  if recipInRange a then (fpPack r.sign r.exp.toNat r.coef, false)
  else (fpPack r.sign 0o60000 (r.coef &&& BitVec.ofNat 48 (2 ^ 47 - 1)), true)

/-! ## Reciprocal iteration (R317) -/

/-- The exact product of two numbers, in units of 2^-96: the coefficients' product, shifted by the exponents. Only
meant for exponents whose sum is at least twice the bias. -/
def unitProduct (a b : Word) : Nat := fpCoef a * fpCoef b * 2 ^ (fpExp a + fpExp b - 0o100000)

/-- An operand of R317: normalized, its exponent in range (R311). -/
def iterOperand (w : Word) : Bool := isNormal w && decide (0o20000 ≤ fpExp w ∧ fpExp w ≤ 0o57777)

/-- The operands for which the iteration is meant (R317, R350): one is what the approximation unit delivers for the other,
so that by R318 their product is within 2^-29 of 1. Nothing is said of an iteration on any other number, such as a
reciprocal that was iterated already (70_reset_and_hazards.md R596; log 16). -/
def iterMeant (a b : Word) : Bool :=
  iterOperand a && iterOperand b && (a == (recipWord b).1 || b == (recipWord a).1)

/-- R317's constraint on the raw result for such operands: positive, normalized, and within 2^-47, the last place of a
number at 1, of 2 - a * b (log 16). -/
def iterOk (a b : Word) (r : FPRaw) : Bool :=
  !r.sign && decide (2 ^ 47 ≤ r.coef.toNat) && decide (r.exp = 0o40000 ∨ r.exp = 0o40001)
    && decide (((r.coef.toNat * 2 ^ (if r.exp = 0o40001 then 49 else 48) + unitProduct a b : Nat)
        - (2 ^ 97 : Nat) : Int).natAbs ≤ 2 ^ 49)

/-- 2 - a * b with as many bits as the format holds, for operands the free function misses. -/
def iterExact (a b : Word) : FPRaw :=
  let t := 2 ^ 97 - unitProduct a b
  if 2 ^ 96 ≤ t then { sign := false, exp := 0o40001, coef := BitVec.ofNat 48 (t / 2 ^ 49) }
  else { sign := false, exp := 0o40000, coef := BitVec.ofNat 48 (t / 2 ^ 48) }

/-- `FPConfig.fiter` (R317): within the constraint for the operands it is meant for, free for the others, a negative zero
included, since R317 lets nothing else be assumed, though R310 says that no unit generates one: DESIGN CHOICE (log 37). -/
def fiter (a b : Word) : FPRaw :=
  let r := Config.fiter a b
  if iterMeant a b && !iterOk a b r then iterExact a b else r

/-- The result of 067, 166 in X-mode and 167 on one pair (R340). -/
def iterWord (a b : Word) : Word × Bool := rangeAm (fiter a b)

/-! ## 32-bit integer product (R346) -/

/-- The accuracy precondition of 166 in Y-mode. -/
def imul32Exact (s v : Word) : Bool :=
  !s.getLsbD 63 && s.extractLsb' 0 31 == 0 && v.extractLsb' 48 16 == 0 && v.extractLsb' 0 16 == 0

/-- One element of 166 in Y-mode; `d` is the draw of an element without the precondition. -/
def imul32 (s v d : Word) : Word :=
  if imul32Exact s v then (s.extractLsb' 31 32 * v.extractLsb' 16 32).setWidth 64 else d

end Sys2Proof.Machine
end

