-- ==== Sys2Proof/Machine/Float.lean ====
section
/-! DEFINITION. Floating-point instructions (44_floating_point.md). A range error sets FPS and, if enabled, F.FPE;
the result is written all the same (R320). -/

namespace Sys2Proof.Machine

open Sys2Proof

/-- A scalar floating-point result: the word and the range error. -/
def State.scalarFp (s : State) (i : BitVec 3) (r : Word × Bool) : Out := ((s.writeS i r.1).fpError r.2).done 1

/-- 002100 (R322). -/
def execEfi (s : State) : Out := (s.writeM { s.cpu.m with ifp := true }).done 1

/-- 002200 (R323). -/
def execDfi (s : State) : Out := (s.writeM { s.cpu.m with ifp := false }).done 1

/-- 062ijk (R324). -/
def execSFadd (i j k : BitVec 3) (s : State) : Out := s.scalarFp i (addWord (s.sjVal j) (s.skVal k))

/-- 063ijk (R325). -/
def execSFsub (i j k : BitVec 3) (s : State) : Out := s.scalarFp i (subWord (s.sjVal j) (s.skVal k))

/-- 170ijk (R326). -/
def execVFaddSv (i j k : BitVec 3) (s : State) : Out := s.vectorFp i fun e => addWord (s.sjVal j) (s.velem k e)

/-- 171ijk (R327). -/
def execVFaddVv (i j k : BitVec 3) (s : State) : Out := s.vectorFp i fun e => addWord (s.velem j e) (s.velem k e)

/-- 172ijk (R328). -/
def execVFsubSv (i j k : BitVec 3) (s : State) : Out := s.vectorFp i fun e => subWord (s.sjVal j) (s.velem k e)

/-- 173ijk (R329). -/
def execVFsubVv (i j k : BitVec 3) (s : State) : Out := s.vectorFp i fun e => subWord (s.velem j e) (s.velem k e)

/-- Pass over `n` draws if there was a use for one. -/
def State.drawnIf (s : State) (b : Bool) (n : Nat) : State := if b then s.drawn n else s

/-- 064ijk (R330, R335). -/
def execSFmul (i j k : BitVec 3) (s : State) : Out :=
  let r := mulWord (s.sjVal j) (s.skVal k) (s.drawAt 0)
  (((s.writeS i r.1).fpError r.2).drawnIf (mulDraws (s.sjVal j) (s.skVal k)) 1).done 1

/-- 065ijk (R331). -/
def execSFmulH (i j k : BitVec 3) (s : State) : Out := s.scalarFp i (mulWordH (s.sjVal j) (s.skVal k))

/-- 066ijk (R332). -/
def execSFmulR (i j k : BitVec 3) (s : State) : Out := s.scalarFp i (mulWordR (s.sjVal j) (s.skVal k))

/-- A vector product of `a e` and `b e`, with a draw for each inexact integer product (R333, R334, R335). -/
def State.vectorMul (s : State) (i : BitVec 3) (a b : BitVec 6 → Word) : Out :=
  if s.cpu.vl = 0 then .refused .vlZero
  else
    let f := fun e => mulWord (a e) (b e) (s.drawAt e.toNat)
    ((((s.writeV i (s.vectorResult i fun e => (f e).1)).markVector).fpError (s.anyElem fun e => (f e).2)).drawnIf
      (s.anyElem fun e => mulDraws (a e) (b e)) s.cpu.vl.toNat).done 1

/-- 160ijk (R333). -/
def execVFmulSv (i j k : BitVec 3) (s : State) : Out := s.vectorMul i (fun _ => s.sjVal j) fun e => s.velem k e

/-- 161ijk (R334). -/
def execVFmulVv (i j k : BitVec 3) (s : State) : Out := s.vectorMul i (fun e => s.velem j e) fun e => s.velem k e

/-- 162ijk (R336). -/
def execVFmulHSv (i j k : BitVec 3) (s : State) : Out := s.vectorFp i fun e => mulWordH (s.sjVal j) (s.velem k e)

/-- 163ijk (R337). -/
def execVFmulHVv (i j k : BitVec 3) (s : State) : Out := s.vectorFp i fun e => mulWordH (s.velem j e) (s.velem k e)

/-- 164ijk (R338). -/
def execVFmulRSv (i j k : BitVec 3) (s : State) : Out := s.vectorFp i fun e => mulWordR (s.sjVal j) (s.velem k e)

/-- 165ijk (R339). -/
def execVFmulRVv (i j k : BitVec 3) (s : State) : Out := s.vectorFp i fun e => mulWordR (s.velem j e) (s.velem k e)

/-- 067ijk (R340). -/
def execSFiter (i j k : BitVec 3) (s : State) : Out := s.scalarFp i (iterWord (s.sjVal j) (s.skVal k))

/-- 070ij0 (R341). -/
def execSFrecip (i j : BitVec 3) (s : State) : Out := s.scalarFp i (recipWord (s.sjVal j))

/-- 174ij0 (R342). -/
def execVFrecip (i j : BitVec 3) (s : State) : Out := s.vectorFp i fun e => recipWord (s.velem j e)

/-- 166ijk, X-mode (R345). -/
def execVFiterSv (i j k : BitVec 3) (s : State) : Out := s.vectorFp i fun e => iterWord (s.sjVal j) (s.velem k e)

/-- 166ijk, Y-mode (R346): a draw for each element without the accuracy precondition. -/
def execVImul32 (i j k : BitVec 3) (s : State) : Out :=
  if s.cpu.vl = 0 then .refused .vlZero
  else
    (((s.writeV i (s.vectorResult i fun e => imul32 (s.sjVal j) (s.velem k e) (s.drawAt e.toNat))).markVector).drawnIf
      (s.anyElem fun e => !imul32Exact (s.sjVal j) (s.velem k e)) s.cpu.vl.toNat).done 1

/-- 167ijk (R347). -/
def execVFiterVv (i j k : BitVec 3) (s : State) : Out := s.vectorFp i fun e => iterWord (s.velem j e) (s.velem k e)

end Sys2Proof.Machine
end

