-- ==== Sys2Proof/Machine/Integer.lean ====
section
/-! DEFINITION. Integer arithmetic instructions (43_integer_arithmetic.md): two's complement, no overflow detected
(R290). -/

namespace Sys2Proof.Machine

open Sys2Proof

/-- 030ijk (R291). -/
def execAAdd (i j k : BitVec 3) (s : State) : Out := (s.writeA i (s.ajVal j + s.akVal k)).done 1

/-- 031ijk (R292). -/
def execASub (i j k : BitVec 3) (s : State) : Out := (s.writeA i (s.ajVal j - s.akVal k)).done 1

/-- 032ijk (R293). -/
def execAMul (i j k : BitVec 3) (s : State) : Out := (s.writeA i (s.ajVal j * s.akVal k)).done 1

/-- 060ijk (R294). -/
def execSAdd (i j k : BitVec 3) (s : State) : Out := (s.writeS i (s.sjVal j + s.skVal k)).done 1

/-- 061ijk (R295). -/
def execSSub (i j k : BitVec 3) (s : State) : Out := (s.writeS i (s.sjVal j - s.skVal k)).done 1

/-- 154ijk (R296). -/
def execVAddSv (i j k : BitVec 3) (s : State) : Out := s.vectorOp i fun e => s.sjVal j + s.velem k e

/-- 155ijk (R297). -/
def execVAddVv (i j k : BitVec 3) (s : State) : Out := s.vectorOp i fun e => s.velem j e + s.velem k e

/-- 156ijk (R298). -/
def execVSubSv (i j k : BitVec 3) (s : State) : Out := s.vectorOp i fun e => s.sjVal j - s.velem k e

/-- 157ijk (R299). -/
def execVSubVv (i j k : BitVec 3) (s : State) : Out := s.vectorOp i fun e => s.velem j e - s.velem k e

end Sys2Proof.Machine
end

