-- ==== Sys2Proof/Machine/Logical.lean ====
section
/-! DEFINITION. Logical, merge and vector mask instructions (45_logical.md). -/

namespace Sys2Proof.Machine

open Sys2Proof

/-- 044ijk (R361). -/
def execSAnd (i j k : BitVec 3) (s : State) : Out := (s.writeS i (s.sjVal j &&& s.skVal k)).done 1

/-- 045ijk (R362). -/
def execSAndn (i j k : BitVec 3) (s : State) : Out := (s.writeS i (s.sjVal j &&& ~~~s.skVal k)).done 1

/-- 046ijk (R363). -/
def execSXor (i j k : BitVec 3) (s : State) : Out := (s.writeS i (s.sjVal j ^^^ s.skVal k)).done 1

/-- 047ijk (R366). -/
def execSXnor (i j k : BitVec 3) (s : State) : Out := (s.writeS i (~~~(s.sjVal j ^^^ s.skVal k))).done 1

/-- The merge of R360: `x` where the mask is 1, `y` where it is 0. -/
def merge (mask x y : Word) : Word := (x &&& mask) ||| (y &&& ~~~mask)

/-- 050ijk (R368): (Sj) where (Sk) is 1, actual (Si) where it is 0. -/
def execSMerge (i j k : BitVec 3) (s : State) : Out :=
  (s.writeS i (merge (s.skVal k) (s.sjVal j) (s.readS i))).done 1

/-- 051ijk (R370). -/
def execSOr (i j k : BitVec 3) (s : State) : Out := (s.writeS i (s.sjVal j ||| s.skVal k)).done 1

/-- 140ijk (R378). -/
def execVAndSv (i j k : BitVec 3) (s : State) : Out := s.vectorOp i fun e => s.sjVal j &&& s.velem k e

/-- 141ijk (R379). -/
def execVAndVv (i j k : BitVec 3) (s : State) : Out := s.vectorOp i fun e => s.velem j e &&& s.velem k e

/-- 142ijk (R380). -/
def execVOrSv (i j k : BitVec 3) (s : State) : Out := s.vectorOp i fun e => s.sjVal j ||| s.velem k e

/-- 143ijk (R381). -/
def execVOrVv (i j k : BitVec 3) (s : State) : Out := s.vectorOp i fun e => s.velem j e ||| s.velem k e

/-- 144ijk (R382). -/
def execVXorSv (i j k : BitVec 3) (s : State) : Out := s.vectorOp i fun e => s.sjVal j ^^^ s.velem k e

/-- 145ijk (R383). -/
def execVXorVv (i j k : BitVec 3) (s : State) : Out := s.vectorOp i fun e => s.velem j e ^^^ s.velem k e

/-- The VM bit of element `e`: bit 63 - e (00_scope.md R8). -/
def vmBit (vm : Word) (e : BitVec 6) : Bool := vm.getLsbD (63 - e.toNat)

/-- 146ijk (R384). -/
def execVMergeSv (i j k : BitVec 3) (s : State) : Out :=
  s.vectorOp i fun e => if vmBit s.cpu.vm e then s.sjVal j else s.velem k e

/-- 147ijk (R385). -/
def execVMergeVv (i j k : BitVec 3) (s : State) : Out :=
  s.vectorOp i fun e => if vmBit s.cpu.vm e then s.velem j e else s.velem k e

/-! ## Vector mask tests (R390) -/

/-- Test Z. -/
def testZ (x : Word) : Bool := x == 0
/-- Test N. -/
def testN (x : Word) : Bool := x != 0
/-- Test P, which includes zero. -/
def testP (x : Word) : Bool := !x.getLsbD 63
/-- Test M. -/
def testM (x : Word) : Bool := x.getLsbD 63

/-- The mask whose bits for elements 0 to `n - 1` are `f`, the others 0. -/
def maskOf (f : BitVec 6 → Bool) (n : Nat) : Word :=
  match n with
  | 0 => 0
  | k + 1 => maskOf f k ||| (if f (BitVec.ofNat 6 k) then 0x8000000000000000 >>> k else 0)

/-- VM after a test of Vj: elements below VL by the test, the others drawn (R390). -/
def State.testedMask (s : State) (test : Word → Bool) (j : BitVec 3) : Word :=
  maskOf (fun e => if e.toNat < s.cpu.vl.toNat then test (s.velem j e) else vmBit (s.drawAt 0) e) 64

/-- The common part of 175 with k at most 3 (R391 to R394). -/
def State.maskTest (s : State) (test : Word → Bool) (j : BitVec 3) : Out :=
  if s.cpu.vl = 0 then .refused .vlZero
  else (((s.writeVm (s.testedMask test j)).markVector).drawn 1).done 1

/-- The elements below VL that pass the test, in rising order (R395). -/
def State.passing (s : State) (test : Word → Bool) (j : BitVec 3) : List Nat :=
  (List.range s.cpu.vl.toNat).filter fun e => test (s.velem j (BitVec.ofNat 6 e))

/-- Vi after a compressed index: the indices from element 0 on, the other elements drawn (R395). -/
def State.compressed (s : State) (test : Word → Bool) (j : BitVec 3) : Vector Word (2 ^ 6) :=
  Vector.ofFn fun r =>
    match (s.passing test j)[r.val]? with
    | some e => BitVec.ofNat 64 e
    | none => s.drawAt (1 + r.val)

/-- The common part of 175 with k at least 4 (R395 to R398). -/
def State.compressedIndex (s : State) (test : Word → Bool) (i j : BitVec 3) : Out :=
  if s.cpu.vl = 0 then .refused .vlZero
  else if i = j then .refused .vectorOverlap
  else ((((s.writeVm (s.testedMask test j)).writeV i (s.compressed test j)).markVector).drawn 65).done 1

/-- 1750j0 (R391). -/
def execVmTestZ (j : BitVec 3) (s : State) : Out := s.maskTest testZ j

/-- 1750j1 (R392). -/
def execVmTestN (j : BitVec 3) (s : State) : Out := s.maskTest testN j

/-- 1750j2 (R393). -/
def execVmTestP (j : BitVec 3) (s : State) : Out := s.maskTest testP j

/-- 1750j3 (R394). -/
def execVmTestM (j : BitVec 3) (s : State) : Out := s.maskTest testM j

/-- 175ij4 (R395). -/
def execVmCidxZ (i j : BitVec 3) (s : State) : Out := s.compressedIndex testZ i j

/-- 175ij5 (R396). -/
def execVmCidxN (i j : BitVec 3) (s : State) : Out := s.compressedIndex testN i j

/-- 175ij6 (R397). -/
def execVmCidxP (i j : BitVec 3) (s : State) : Out := s.compressedIndex testP i j

/-- 175ij7 (R398). -/
def execVmCidxM (i j : BitVec 3) (s : State) : Out := s.compressedIndex testM i j

end Sys2Proof.Machine
end

