-- ==== Sys2Proof/Machine/MemTransfer.lean ====
section
/-! DEFINITION. Memory transfer instructions (42_memory_transfer.md). -/

namespace Sys2Proof.Machine

open Sys2Proof

/-- 002500 (R250). -/
def execDbm (s : State) : Out := (s.writeM { s.cpu.m with bdm := false }).done 1

/-- 002600 (R251). -/
def execEbm (s : State) : Out := (s.writeM { s.cpu.m with bdm := true }).done 1

/-- 002404 (R252). -/
def execDcbw (s : State) : Out := (s.withCpu { s.cpu with cbw := false }).done 1

/-- 002604 (R253). -/
def execEcbw (s : State) : Out := (s.withCpu { s.cpu with cbw := true }).done 1

/-- 002506 (R254). -/
def execDsbo (s : State) : Out := (s.withCpu { s.cpu with sbo := false }).done 1

/-- 002606 (R255). -/
def execEsbo (s : State) : Out := (s.withCpu { s.cpu with sbo := true }).done 1

/-- 002700 (R256): every earlier reference is complete, which ends the race windows of 20_memory.md R98. -/
def execCmr (s : State) : Out := (s.withCpu { s.cpu with refs := [] }).done 1

/-! ## Scalar reads and writes (R257 to R266) -/

/-- Read a word into Ai, keeping its low AW bits (R258, R259). -/
def loadA (i : BitVec 3) (ea : Addr) (n : Nat) (s : State) : Out :=
  orStop (s.dataRead ea) fun r => (r.2.writeA i (r.1.setWidth 32)).done n

/-- Write (Ai), zero-extended (R260, R261). -/
def storeA (i : BitVec 3) (ea : Addr) (n : Nat) (s : State) : Out :=
  orStop (s.dataWrite ea ((s.readA i).setWidth 64)) fun t => t.done n

/-- Read a word into Si (R263, R264). -/
def loadS (i : BitVec 3) (ea : Addr) (n : Nat) (s : State) : Out :=
  orStop (s.dataRead ea) fun r => (r.2.writeS i r.1).done n

/-- Write (Si) (R265, R266). -/
def storeS (i : BitVec 3) (ea : Addr) (n : Nat) (s : State) : Out :=
  orStop (s.dataWrite ea (s.readS i)) fun t => t.done n

/-- Go on with the X-mode displacement, or refuse (R262). -/
def withDisp22 (jkm : BitVec 22) (k : Addr → Out) : Out :=
  match disp22 jkm with
  | none => .refused .displacementSign
  | some d => k d

/-- 10hijkm, X-mode (R258). -/
def execLdAX (h i : BitVec 3) (jkm : BitVec 22) (s : State) : Out :=
  withDisp22 jkm fun d => loadA i (s.scalarAddr h d) 2 s

/-- 10hi00mn, Y-mode (R259). -/
def execLdAY (h i : BitVec 3) (nm : BitVec 32) (s : State) : Out := loadA i (s.scalarAddr h nm) 3 s

/-- 11hijkm, X-mode (R260). -/
def execStAX (h i : BitVec 3) (jkm : BitVec 22) (s : State) : Out :=
  withDisp22 jkm fun d => storeA i (s.scalarAddr h d) 2 s

/-- 11hi00mn, Y-mode (R261). -/
def execStAY (h i : BitVec 3) (nm : BitVec 32) (s : State) : Out := storeA i (s.scalarAddr h nm) 3 s

/-- 12hijkm, X-mode (R263). -/
def execLdSX (h i : BitVec 3) (jkm : BitVec 22) (s : State) : Out :=
  withDisp22 jkm fun d => loadS i (s.scalarAddr h d) 2 s

/-- 12hi00mn, Y-mode (R264). -/
def execLdSY (h i : BitVec 3) (nm : BitVec 32) (s : State) : Out := loadS i (s.scalarAddr h nm) 3 s

/-- 13hijkm, X-mode (R265). -/
def execStSX (h i : BitVec 3) (jkm : BitVec 22) (s : State) : Out :=
  withDisp22 jkm fun d => storeS i (s.scalarAddr h d) 2 s

/-- 13hi00mn, Y-mode (R266). -/
def execStSY (h i : BitVec 3) (nm : BitVec 32) (s : State) : Out := storeS i (s.scalarAddr h nm) 3 s

/-! ## Block transfers (R270 to R274) -/

/-- The common rule: refuse a count beyond the file; the count is actual (Ai). -/
def State.withBlock (s : State) (i : BitVec 3) (jk : BitVec 6) (k : Nat → Out) : Out :=
  if blockFits jk (s.readA i) then k (s.readA i).toNat else .refused .blockCount

/-- 034ijk (R271): low AW bits of each word. -/
def execLdBBlk (i : BitVec 3) (jk : BitVec 6) (s : State) : Out :=
  s.withBlock i jk fun n =>
    orStop (s.blockRead (s.blockAddrs n)) fun r =>
      (r.2.withCpu { r.2.cpu with
        b := blockLoaded s.cpu.b jk.toNat (fun w => amask s.cpu.m.eam (w.setWidth 32)) r.1 }).done 1

/-- 035ijk (R272): each register masked and zero-extended. -/
def execStBBlk (i : BitVec 3) (jk : BitVec 6) (s : State) : Out :=
  s.withBlock i jk fun n =>
    orStop (s.blockWrite false (s.blockAddrs n)
      ((blockRegs s.cpu.b jk n).map fun v => (amask s.cpu.m.eam v).setWidth 64)) fun t => t.done 1

/-- 036ijk (R273). -/
def execLdTBlk (i : BitVec 3) (jk : BitVec 6) (s : State) : Out :=
  s.withBlock i jk fun n =>
    orStop (s.blockRead (s.blockAddrs n)) fun r =>
      (r.2.withCpu { r.2.cpu with t := blockLoaded s.cpu.t jk.toNat id r.1 }).done 1

/-- 037ijk (R274). -/
def execStTBlk (i : BitVec 3) (jk : BitVec 6) (s : State) : Out :=
  s.withBlock i jk fun n =>
    orStop (s.blockWrite false (s.blockAddrs n) (blockRegs s.cpu.t jk n)) fun t => t.done 1

/-! ## Vector reads and writes (R278 to R282) -/

/-- Read VL words into Vi, elements at and above VL kept (R278). -/
def loadV (i : BitVec 3) (eas : List Addr) (s : State) : Out :=
  if s.cpu.vl = 0 then .refused .vlZero
  else orStop (s.blockRead eas) fun r => ((r.2.writeV i (blockLoaded (s.readV i) 0 id r.1)).markVector).done 1

/-- Write VL elements of Vj (R278). -/
def storeV (scatter : Bool) (j : BitVec 3) (eas : List Addr) (s : State) : Out :=
  if s.cpu.vl = 0 then .refused .vlZero
  else orStop (s.blockWrite scatter eas (blockRegs (s.readV j) 0 s.cpu.vl.toNat)) fun t => t.markVector.done 1

/-- 176i0k (R279). -/
def execLdV (i k : BitVec 3) (s : State) : Out := loadV i (s.strideAddrs (s.akVal k)) s

/-- 176i1k (R280): the index register may not be the result register. -/
def execLdVGather (i k : BitVec 3) (s : State) : Out :=
  if i = k then .refused .vectorOverlap else loadV i (s.indexAddrs k) s

/-- 1770jk (R281). -/
def execStV (j k : BitVec 3) (s : State) : Out := storeV false j (s.strideAddrs (s.akVal k)) s

/-- 1771jk (R282). -/
def execStVScatter (j k : BitVec 3) (s : State) : Out := storeV true j (s.indexAddrs k) s

end Sys2Proof.Machine
end

