-- ==== Sys2Proof/Machine/Monitor.lean ====
section
/-! DEFINITION. Monitor mode and control instructions (49_monitor_mode.md). -/

namespace Sys2Proof.Machine

open Sys2Proof

/-- 001000 (R472). -/
def execPass (s : State) : Out := s.done 1

/-! ## Channel control (R473 to R477) -/

/-- The channel with a number, if it is in the configuration (R473). -/
def State.channel (s : State) (ch : Addr) : Option Channel := s.channels.find? fun c => c.num == ch

/-- Change the channel with a number. -/
def State.setChannel (s : State) (ch : Addr) (f : Channel → Channel) : State :=
  { s with channels := s.channels.map fun c => if c.num = ch then f c else c }

/-- Go on with a channel, or refuse its number (R473). -/
def State.withChannel (s : State) (ch : Addr) (k : Channel → Out) : Out :=
  match s.channel ch with
  | none => .refused .channelNumber
  | some c => k c

/-- 0010jk (R474): refused on an active channel. -/
def execChCa (j k : BitVec 3) (s : State) : Out :=
  s.monitorOnly <| s.withChannel (s.ajVal j) fun c =>
    if c.active then .refused .channelActive
    else (s.setChannel (s.ajVal j) fun c => { c with ca := s.akVal k, active := true }).done 1

/-- 0011jk (R475): refused on an active channel. -/
def execChCl (j k : BitVec 3) (s : State) : Out :=
  s.monitorOnly <| s.withChannel (s.ajVal j) fun c =>
    if c.active then .refused .channelActive
    else (s.setChannel (s.ajVal j) fun c => { c with cl := s.akVal k }).done 1

/-- Clear the flags and, on an output channel, the device's master-clear (R476). -/
def Channel.clearInterrupt (c : Channel) : Channel :=
  { c with intFlag := false
           errFlag := false
           masterClear := match c.dir with
             | .output => false
             | .input => c.masterClear }

/-- Clear the flags; set master-clear on an output channel, clear ready-held on an input channel (R477). -/
def Channel.clearMaster (c : Channel) : Channel :=
  { c with intFlag := false
           errFlag := false
           masterClear := match c.dir with
             | .output => true
             | .input => c.masterClear
           readyHeld := match c.dir with
             | .output => c.readyHeld
             | .input => false }

/-- 0012j0 (R476). -/
def execChCi (j : BitVec 3) (s : State) : Out :=
  s.monitorOnly <| s.withChannel (s.ajVal j) fun _ => (s.setChannel (s.ajVal j) Channel.clearInterrupt).done 1

/-- 0012j1 (R477). -/
def execChMc (j : BitVec 3) (s : State) : Out :=
  s.monitorOnly <| s.withChannel (s.ajVal j) fun _ => (s.setChannel (s.ajVal j) Channel.clearMaster).done 1

/-- The 8 bits of an operand that enter XA (R478). -/
def XASel.pick (sel : XASel) (v : Addr) : BitVec 8 :=
  match sel with
  | .low8 => v.setWidth 8
  | .addr => v.extractLsb' 4 8

/-- The operand is beyond the exchange address field: 2^12 for both choices, and above 255 for low8 (R478). -/
def XASel.tooBig (sel : XASel) (v : Addr) : Bool :=
  match sel with
  | .low8 => decide (256 ≤ v.toNat)
  | .addr => decide (2 ^ 12 ≤ v.toNat)

/-- 0013j0 (R478). -/
def execXaFromA (j : BitVec 3) (s : State) : Out :=
  s.monitorOnly <|
    if XASel.tooBig s.params.xaSel (s.ajVal j) then .refused .xaOperand
    else (s.withCpu { s.cpu with xa := XASel.pick s.params.xaSel (s.ajVal j) }).done 1

/-! ## Clocks (R480 to R485) -/

/-- 0014j0 (R480): the clock all CPUs share. -/
def execRtcLoad (j : BitVec 3) (s : State) : Out := s.monitorOnly <| ({ s with rtc := s.sjVal j } : State).done 1

/-- 0014j4 (R481): the interval register and the counter. -/
def execPciLoad (j : BitVec 3) (s : State) : Out :=
  s.monitorOnly <|
    if 2 ^ 32 ≤ (s.sjVal j).toNat then .refused .clockOperand
    else (s.withCpu { s.cpu with ii := (s.sjVal j).setWidth 32, pc := (s.sjVal j).setWidth 32 }).done 1

/-- 001405 (R482). -/
def execCci (s : State) : Out := s.monitorOnly <| (s.withCpu { s.cpu with pciRequest := false }).done 1

/-- 001406 (R483). -/
def execEci (s : State) : Out := s.monitorOnly <| (s.withCpu { s.cpu with pciEnabled := true }).done 1

/-- 001407 (R485). -/
def execDci (s : State) : Out := s.monitorOnly <| (s.withCpu { s.cpu with pciEnabled := false }).done 1

/-! ## Interprocessor interrupt and cluster number (R484 to R487) -/

/-- The operand of 0014j1 and 0014j3: (Aj) in Y-mode, the value of j in X-mode. -/
def State.selectVal (s : State) (j : BitVec 3) : Addr := if s.cpu.m.eam then s.ajVal j else j.setWidth 32

/-- `ipi_request[t] <- true` for a CPU other than the one that moves. -/
def State.requestIpi (s : State) (t : Addr) : State :=
  { s with others := s.others.map fun c => if c.pn.setWidth 32 = t then { c with ipiRequest := true } else c }

/-- 0014j1 (R484). -/
def execSipi (j : BitVec 3) (s : State) : Out :=
  s.monitorOnly <|
    if s.params.ncpu ≤ (s.selectVal j).toNat then .refused .sipiTarget
    else if s.selectVal j = s.cpu.pn.setWidth 32 then .refused .sipiSelf
    else (s.requestIpi (s.selectVal j)).done 1

/-- 001402 (R486): the issuing CPU's own request. -/
def execCipi (s : State) : Out := s.monitorOnly <| (s.withCpu { s.cpu with ipiRequest := false }).done 1

/-- 0014j3 (R487). -/
def execClnLoad (j : BitVec 3) (s : State) : Out :=
  s.monitorOnly <|
    if s.params.ncluster < (s.selectVal j).toNat then .refused .clusterNumber
    else (s.withCpu { s.cpu with cln := (s.selectVal j).setWidth 4 }).done 1

/-! ## Operand range error interrupt (R490, R491) -/

/-- 002300 (R490). -/
def execEri (s : State) : Out := (s.writeM { s.cpu.m with ior := true }).done 1

/-- 002400 (R491). -/
def execDri (s : State) : Out := (s.writeM { s.cpu.m with ior := false }).done 1

/-! ## Channel status reads (R495 to R497) -/

/-- The highest priority channel that requests an interrupt: the first of the configuration's order (log 24). -/
def State.requesting (s : State) : Option Channel := s.channels.find? fun c => c.intFlag

/-- 033i00 (R495): a draw when no channel requests. -/
def execAFromCi (i : BitVec 3) (s : State) : Out :=
  match s.requesting with
  | some c => (s.writeA i c.num).done 1
  | none => ((s.writeA i ((s.drawAt 0).setWidth 32)).drawn 1).done 1

/-- 033ij0 (R496). -/
def execAFromCa (i j : BitVec 3) (s : State) : Out :=
  s.withChannel (s.readA j) fun c => (s.writeA i c.ca).done 1

/-- 033ij1 (R497): the integer 0 or 1. -/
def execAFromCe (i j : BitVec 3) (s : State) : Out :=
  s.withChannel (s.readA j) fun c => (s.writeA i ((BitVec.ofBool c.errFlag).setWidth 32)).done 1

end Sys2Proof.Machine
end

