-- ==== Sys2Proof/Machine/RegisterEntry.lean ====
section
/-! DEFINITION. Register entry instructions (40_register_entry.md). -/

namespace Sys2Proof.Machine

open Sys2Proof

/-- 01hijkm (R160). -/
def execAImm24 (h : BitVec 3) (exp : BitVec 24) (s : State) : Out := (s.writeA h (exp.setWidth 32)).done 2

/-- 020ijkm, X-mode (R161). -/
def execAImm22 (i : BitVec 3) (jkm : BitVec 22) (s : State) : Out := (s.writeA i (jkm.setWidth 32)).done 2

/-- 021ijkm, X-mode (R162): the one's complement, masked by the write. -/
def execAImm22c (i : BitVec 3) (jkm : BitVec 22) (s : State) : Out := (s.writeA i (~~~jkm.setWidth 32)).done 2

/-- 020i00mn, Y-mode (R163). -/
def execAImm32 (i : BitVec 3) (nm : BitVec 32) (s : State) : Out := (s.writeA i nm).done 3

/-- 021i00mn, Y-mode (R164). -/
def execAImm32c (i : BitVec 3) (nm : BitVec 32) (s : State) : Out := (s.writeA i (~~~nm)).done 3

/-- 022ijk (R165). -/
def execAImm6 (i : BitVec 3) (jk : BitVec 6) (s : State) : Out := (s.writeA i (jk.setWidth 32)).done 1

/-- 040ijkm, X-mode (R167). -/
def execSImm22 (i : BitVec 3) (jkm : BitVec 22) (s : State) : Out := (s.writeS i (jkm.setWidth 64)).done 2

/-- 041ijkm, X-mode (R168). -/
def execSImm22c (i : BitVec 3) (jkm : BitVec 22) (s : State) : Out := (s.writeS i (~~~jkm.setWidth 64)).done 2

/-- 040i00mn, Y-mode (R169). -/
def execSImm32 (i : BitVec 3) (nm : BitVec 32) (s : State) : Out := (s.writeS i (nm.setWidth 64)).done 3

/-- 041i00mn, Y-mode (R170). -/
def execSImm32c (i : BitVec 3) (nm : BitVec 32) (s : State) : Out := (s.writeS i (~~~nm.setWidth 64)).done 3

/-- Ones in the low `n` bits (R171). -/
def onesRight (n : Nat) : Word := BitVec.ofNat 64 (2 ^ n - 1)

/-- Ones in the high `n` bits (R172). -/
def onesLeft (n : Nat) : Word := BitVec.ofNat 64 ((2 ^ n - 1) * 2 ^ (64 - n))

/-- 042ijk (R171): 64 - jk ones from the right. -/
def execSMaskr (i : BitVec 3) (jk : BitVec 6) (s : State) : Out := (s.writeS i (onesRight (64 - jk.toNat))).done 1

/-- 043ijk (R172): jk ones from the left. -/
def execSMaskl (i : BitVec 3) (jk : BitVec 6) (s : State) : Out := (s.writeS i (onesLeft jk.toNat)).done 1

/-- 071i30 (R174): 0.75 * 2^48. -/
def execSFc06 (i : BitVec 3) (s : State) : Out := (s.writeS i 0o0400606000000000000000).done 1

/-- 071i40 (R174): 0.5. -/
def execSFc04 (i : BitVec 3) (s : State) : Out := (s.writeS i 0o0400004000000000000000).done 1

/-- 071i50 (R174): 1.0. -/
def execSFc1 (i : BitVec 3) (s : State) : Out := (s.writeS i 0o0400014000000000000000).done 1

/-- 071i60 (R174): 2.0. -/
def execSFc2 (i : BitVec 3) (s : State) : Out := (s.writeS i 0o0400024000000000000000).done 1

/-- 071i70 (R174): 4.0. -/
def execSFc4 (i : BitVec 3) (s : State) : Out := (s.writeS i 0o0400034000000000000000).done 1

end Sys2Proof.Machine
end

