-- ==== Sys2Proof/Machine/Shift.lean ====
section
/-! DEFINITION. Shift instructions (46_shift.md): logical, zero fill, the count a full unsigned number (R400). -/

namespace Sys2Proof.Machine

open Sys2Proof

/-- Left by `c` places; 0 for 64 or more. -/
def shl64 (v : Word) (c : Nat) : Word := if 64 ≤ c then 0 else v <<< c

/-- Right by `c` places; 0 for 64 or more. -/
def shr64 (v : Word) (c : Nat) : Word := if 64 ≤ c then 0 else v >>> c

/-- The left half of `hi : lo` shifted left by `c` places; 0 for 128 or more (R405). -/
def dshl (hi lo : Word) (c : Nat) : Word := if 128 ≤ c then 0 else ((hi ++ lo) <<< c).extractLsb' 64 64

/-- The right half of `hi : lo` shifted right by `c` places; 0 for 128 or more (R406). -/
def dshr (hi lo : Word) (c : Nat) : Word := if 128 ≤ c then 0 else ((hi ++ lo) >>> c).extractLsb' 0 64

/-- 052ijk (R401). -/
def execS0Shl (i : BitVec 3) (jk : BitVec 6) (s : State) : Out := (s.writeS 0 (shl64 (s.readS i) jk.toNat)).done 1

/-- 053ijk (R402): 64 - jk places. -/
def execS0Shr (i : BitVec 3) (jk : BitVec 6) (s : State) : Out :=
  (s.writeS 0 (shr64 (s.readS i) (64 - jk.toNat))).done 1

/-- 054ijk (R403). -/
def execSShl (i : BitVec 3) (jk : BitVec 6) (s : State) : Out := (s.writeS i (shl64 (s.readS i) jk.toNat)).done 1

/-- 055ijk (R404): 64 - jk places. -/
def execSShr (i : BitVec 3) (jk : BitVec 6) (s : State) : Out :=
  (s.writeS i (shr64 (s.readS i) (64 - jk.toNat))).done 1

/-- 056ijk (R405): actual (Si) on the left. -/
def execSDshl (i j k : BitVec 3) (s : State) : Out :=
  (s.writeS i (dshl (s.readS i) (s.sjVal j) (s.akVal k).toNat)).done 1

/-- 057ijk (R406): actual (Si) on the right. -/
def execSDshr (i j k : BitVec 3) (s : State) : Out :=
  (s.writeS i (dshr (s.sjVal j) (s.readS i) (s.akVal k).toNat)).done 1

/-- 150ijk (R410). -/
def execVShl (i j k : BitVec 3) (s : State) : Out :=
  s.vectorOp i fun e => shl64 (s.velem j e) (s.akVal k).toNat

/-- 151ijk (R411). -/
def execVShr (i j k : BitVec 3) (s : State) : Out :=
  s.vectorOp i fun e => shr64 (s.velem j e) (s.akVal k).toNat

/-- The element after `e`; zero after element VL - 1 (R412). -/
def State.nextElem (s : State) (j : BitVec 3) (e : BitVec 6) : Word :=
  if e.toNat + 1 < s.cpu.vl.toNat then s.velem j (e + 1) else 0

/-- The element before `e`; zero before element 0 (R413). -/
def State.prevElem (s : State) (j : BitVec 3) (e : BitVec 6) : Word := if e = 0 then 0 else s.velem j (e - 1)

/-- 152ijk (R412): element e with element e + 1 on its right; i = j refused. -/
def execVDshl (i j k : BitVec 3) (s : State) : Out :=
  if i = j then .refused .vectorOverlap
  else s.vectorOp i fun e => dshl (s.velem j e) (s.nextElem j e) (s.akVal k).toNat

/-- 153ijk (R413): element e with element e - 1 on its left; i = j refused. -/
def execVDshr (i j k : BitVec 3) (s : State) : Out :=
  if i = j then .refused .vectorOverlap
  else s.vectorOp i fun e => dshr (s.prevElem j e) (s.velem j e) (s.akVal k).toNat

end Sys2Proof.Machine
end

