-- ==== Sys2Proof/Machine/Transfer.lean ====
section
/-! DEFINITION. Interregister transfer and shared-register instructions (41_interregister_transfer.md). -/

namespace Sys2Proof.Machine

open Sys2Proof

/-- 023ij0 (R200): the low AW bits of (Sj). -/
def execAFromS (i j : BitVec 3) (s : State) : Out := (s.writeA i ((s.sjVal j).setWidth 32)).done 1

/-- 023i01 (R201). -/
def execAFromVl (i : BitVec 3) (s : State) : Out := (s.writeA i (s.cpu.vl.setWidth 32)).done 1

/-- 024ijk (R202). -/
def execAFromB (i : BitVec 3) (jk : BitVec 6) (s : State) : Out := (s.writeA i (s.readB jk)).done 1

/-- 025ijk (R203): actual contents of Ai. -/
def execBFromA (i : BitVec 3) (jk : BitVec 6) (s : State) : Out := (s.writeB jk (s.readA i)).done 1

/-- 026ij7 (R204). -/
def execAFromSb (i j : BitVec 3) (s : State) : Out :=
  s.shared fun c => (s.writeA i (regGet c.sb j)).done 1

/-- 027ij7 (R206). -/
def execSbFromA (i j : BitVec 3) (s : State) : Out :=
  s.shared fun c => (s.writeCluster { c with sb := regPut c.sb j (s.readA i) }).done 1

/-- 071i0k (R210): no sign extension. -/
def execSFromA (i k : BitVec 3) (s : State) : Out := (s.writeS i ((s.akVal k).setWidth 64)).done 1

/-- Sign extension of an AW-bit value to 64 bits (R211). -/
def signExtendA (eam : Bool) (v : Addr) : Word := if eam then v.signExtend 64 else (v.setWidth 24).signExtend 64

/-- 071i1k (R211). -/
def execSFromASx (i k : BitVec 3) (s : State) : Out :=
  (s.writeS i (signExtendA s.cpu.m.eam (s.akVal k))).done 1

/-- An AW-bit two's complement integer as an unnormalized floating-point number with exponent 40060 octal: sign and
magnitude, as R212 has it, also of a negative one, where decision D30 words it otherwise (log 41). -/
def floatOfA (eam : Bool) (v : Addr) : Word :=
  let neg := asign eam v
  let mag : Addr := if neg then amask eam (-v) else v
  BitVec.ofBool neg ++ (0o40060 : BitVec 15) ++ mag.setWidth 48

/-- 071i2k (R212). -/
def execSFromAFlt (i k : BitVec 3) (s : State) : Out := (s.writeS i (floatOfA s.cpu.m.eam (s.akVal k))).done 1

/-- 072i00 (R213): the count at this step; how many clock periods have passed is the agenda's (log 30). -/
def execSFromRtc (i : BitVec 3) (s : State) : Out := (s.writeS i s.rtc).done 1

/-- 072i02 (R214): semaphore n in bit 63 - n, the low 32 bits zero. -/
def execSFromSm (i : BitVec 3) (s : State) : Out :=
  s.shared fun c => (s.writeS i (c.sm ++ (0 : BitVec 32))).done 1

/-- 072ij3 (R215). -/
def execSFromSt (i j : BitVec 3) (s : State) : Out :=
  s.shared fun c => (s.writeS i (regGet c.st j)).done 1

/-- 073i00 (R216). -/
def execSFromVm (i : BitVec 3) (s : State) : Out := (s.writeS i s.cpu.vm).done 1

/-- 073i01 (R217). -/
def execSFromSr (i : BitVec 3) (s : State) : Out := (s.writeS i (s.cpu.statusWord s.params.sr)).done 1

/-- 073i02 (R218): all 32 semaphores from the high half of (Si). -/
def execSmFromS (i : BitVec 3) (s : State) : Out :=
  s.shared fun c => (s.writeCluster { c with sm := (s.readS i).extractLsb' 32 32 }).done 1

/-- 073ij3 (R219). -/
def execStFromS (i j : BitVec 3) (s : State) : Out :=
  s.shared fun c => (s.writeCluster { c with st := regPut c.st j (s.readS i) }).done 1

/-- 074ijk (R220). -/
def execSFromT (i : BitVec 3) (jk : BitVec 6) (s : State) : Out := (s.writeS i (s.readT jk)).done 1

/-- 075ijk (R221). -/
def execTFromS (i : BitVec 3) (jk : BitVec 6) (s : State) : Out := (s.writeT jk (s.readS i)).done 1

/-- An instruction with a vector element index (R222, R229): refused at 64 or more. -/
def State.withElem (s : State) (k : BitVec 3) (f : BitVec 6 → Out) : Out :=
  if 64 ≤ (s.akVal k).toNat then .refused .elementIndex else f ((s.akVal k).setWidth 6)

/-- 076ijk (R222): VL plays no part, and it does not count as a vector instruction. -/
def execSFromVelem (i j k : BitVec 3) (s : State) : Out :=
  s.withElem k fun x => (s.writeS i (s.velem j x)).done 1

/-- 077ijk (R229): VL plays no part; it counts as a vector instruction. -/
def execVelemFromS (i j k : BitVec 3) (s : State) : Out :=
  s.withElem k fun x => ((s.writeV i (regPut (s.readV i) x (s.sjVal j))).markVector).done 1

/-- 0030j0 (R231). -/
def execVmFromS (j : BitVec 3) (s : State) : Out := (s.writeVm (s.sjVal j)).done 1

/-- 00200k (R232): refused above 100 octal. -/
def execVlFromA (k : BitVec 3) (s : State) : Out :=
  if 64 < (s.akVal k).toNat then .refused .vlTooLarge else (s.writeVl ((s.akVal k).setWidth 7)).done 1

/-- The CPU holds issue on a test and set of semaphore `jk`, or no longer does (10_state.md R32, R44). -/
def State.hold (s : State) (h : Option (BitVec 6)) : State := s.withCpu { s.cpu with holding := h }

/-- 0034jk (R240): sets a clear semaphore and goes on; holds issue, writing nothing else, while it is 1. -/
def execSmTs (jk : BitVec 6) (s : State) : Out :=
  s.shared fun c =>
    if c.smIsSet jk then .next (s.hold (some jk)) else ((s.writeCluster (c.smSet jk)).hold none).done 1

/-- 0036jk (R241). -/
def execSmClr (jk : BitVec 6) (s : State) : Out := s.shared fun c => (s.writeCluster (c.smClear jk)).done 1

/-- 0037jk (R242). -/
def execSmSet (jk : BitVec 6) (s : State) : Out := s.shared fun c => (s.writeCluster (c.smSet jk)).done 1

end Sys2Proof.Machine
end

