-- ==== Sys2Proof/Machine/Dispatch.lean ====
section
/-! DEFINITION. The dispatch of an instruction to its meaning, one arm per constructor. -/

namespace Sys2Proof.Machine

open Sys2Proof

def exec (i : Instr) (s : State) : Host.Outcome State Fault Refusal :=
  match i with
  | .aImm24 h exp => Sys2Proof.Machine.execAImm24 h exp s
  | .aImm22 ri jkm => Sys2Proof.Machine.execAImm22 ri jkm s
  | .aImm22c ri jkm => Sys2Proof.Machine.execAImm22c ri jkm s
  | .aImm32 ri nm => Sys2Proof.Machine.execAImm32 ri nm s
  | .aImm32c ri nm => Sys2Proof.Machine.execAImm32c ri nm s
  | .aImm6 ri jk => Sys2Proof.Machine.execAImm6 ri jk s
  | .sImm22 ri jkm => Sys2Proof.Machine.execSImm22 ri jkm s
  | .sImm22c ri jkm => Sys2Proof.Machine.execSImm22c ri jkm s
  | .sImm32 ri nm => Sys2Proof.Machine.execSImm32 ri nm s
  | .sImm32c ri nm => Sys2Proof.Machine.execSImm32c ri nm s
  | .sMaskr ri jk => Sys2Proof.Machine.execSMaskr ri jk s
  | .sMaskl ri jk => Sys2Proof.Machine.execSMaskl ri jk s
  | .sFc06 ri => Sys2Proof.Machine.execSFc06 ri s
  | .sFc04 ri => Sys2Proof.Machine.execSFc04 ri s
  | .sFc1 ri => Sys2Proof.Machine.execSFc1 ri s
  | .sFc2 ri => Sys2Proof.Machine.execSFc2 ri s
  | .sFc4 ri => Sys2Proof.Machine.execSFc4 ri s
  | .aFromS ri j => Sys2Proof.Machine.execAFromS ri j s
  | .aFromVl ri => Sys2Proof.Machine.execAFromVl ri s
  | .aFromB ri jk => Sys2Proof.Machine.execAFromB ri jk s
  | .bFromA ri jk => Sys2Proof.Machine.execBFromA ri jk s
  | .aFromSb ri j => Sys2Proof.Machine.execAFromSb ri j s
  | .sbFromA ri j => Sys2Proof.Machine.execSbFromA ri j s
  | .sFromA ri k => Sys2Proof.Machine.execSFromA ri k s
  | .sFromASx ri k => Sys2Proof.Machine.execSFromASx ri k s
  | .sFromAFlt ri k => Sys2Proof.Machine.execSFromAFlt ri k s
  | .sFromRtc ri => Sys2Proof.Machine.execSFromRtc ri s
  | .sFromSm ri => Sys2Proof.Machine.execSFromSm ri s
  | .sFromSt ri j => Sys2Proof.Machine.execSFromSt ri j s
  | .sFromVm ri => Sys2Proof.Machine.execSFromVm ri s
  | .sFromSr ri => Sys2Proof.Machine.execSFromSr ri s
  | .smFromS ri => Sys2Proof.Machine.execSmFromS ri s
  | .stFromS ri j => Sys2Proof.Machine.execStFromS ri j s
  | .sFromT ri jk => Sys2Proof.Machine.execSFromT ri jk s
  | .tFromS ri jk => Sys2Proof.Machine.execTFromS ri jk s
  | .sFromVelem ri j k => Sys2Proof.Machine.execSFromVelem ri j k s
  | .velemFromS ri j k => Sys2Proof.Machine.execVelemFromS ri j k s
  | .vmFromS j => Sys2Proof.Machine.execVmFromS j s
  | .vlFromA k => Sys2Proof.Machine.execVlFromA k s
  | .smTs jk => Sys2Proof.Machine.execSmTs jk s
  | .smClr jk => Sys2Proof.Machine.execSmClr jk s
  | .smSet jk => Sys2Proof.Machine.execSmSet jk s
  | .dbm => Sys2Proof.Machine.execDbm s
  | .ebm => Sys2Proof.Machine.execEbm s
  | .dcbw => Sys2Proof.Machine.execDcbw s
  | .ecbw => Sys2Proof.Machine.execEcbw s
  | .dsbo => Sys2Proof.Machine.execDsbo s
  | .esbo => Sys2Proof.Machine.execEsbo s
  | .cmr => Sys2Proof.Machine.execCmr s
  | .ldAX h ri jkm => Sys2Proof.Machine.execLdAX h ri jkm s
  | .ldAY h ri nm => Sys2Proof.Machine.execLdAY h ri nm s
  | .stAX h ri jkm => Sys2Proof.Machine.execStAX h ri jkm s
  | .stAY h ri nm => Sys2Proof.Machine.execStAY h ri nm s
  | .ldSX h ri jkm => Sys2Proof.Machine.execLdSX h ri jkm s
  | .ldSY h ri nm => Sys2Proof.Machine.execLdSY h ri nm s
  | .stSX h ri jkm => Sys2Proof.Machine.execStSX h ri jkm s
  | .stSY h ri nm => Sys2Proof.Machine.execStSY h ri nm s
  | .ldBBlk ri jk => Sys2Proof.Machine.execLdBBlk ri jk s
  | .stBBlk ri jk => Sys2Proof.Machine.execStBBlk ri jk s
  | .ldTBlk ri jk => Sys2Proof.Machine.execLdTBlk ri jk s
  | .stTBlk ri jk => Sys2Proof.Machine.execStTBlk ri jk s
  | .ldV ri k => Sys2Proof.Machine.execLdV ri k s
  | .ldVGather ri k => Sys2Proof.Machine.execLdVGather ri k s
  | .stV j k => Sys2Proof.Machine.execStV j k s
  | .stVScatter j k => Sys2Proof.Machine.execStVScatter j k s
  | .aAdd ri j k => Sys2Proof.Machine.execAAdd ri j k s
  | .aSub ri j k => Sys2Proof.Machine.execASub ri j k s
  | .aMul ri j k => Sys2Proof.Machine.execAMul ri j k s
  | .sAdd ri j k => Sys2Proof.Machine.execSAdd ri j k s
  | .sSub ri j k => Sys2Proof.Machine.execSSub ri j k s
  | .vAddSv ri j k => Sys2Proof.Machine.execVAddSv ri j k s
  | .vAddVv ri j k => Sys2Proof.Machine.execVAddVv ri j k s
  | .vSubSv ri j k => Sys2Proof.Machine.execVSubSv ri j k s
  | .vSubVv ri j k => Sys2Proof.Machine.execVSubVv ri j k s
  | .efi => Sys2Proof.Machine.execEfi s
  | .dfi => Sys2Proof.Machine.execDfi s
  | .sFadd ri j k => Sys2Proof.Machine.execSFadd ri j k s
  | .sFsub ri j k => Sys2Proof.Machine.execSFsub ri j k s
  | .vFaddSv ri j k => Sys2Proof.Machine.execVFaddSv ri j k s
  | .vFaddVv ri j k => Sys2Proof.Machine.execVFaddVv ri j k s
  | .vFsubSv ri j k => Sys2Proof.Machine.execVFsubSv ri j k s
  | .vFsubVv ri j k => Sys2Proof.Machine.execVFsubVv ri j k s
  | .sFmul ri j k => Sys2Proof.Machine.execSFmul ri j k s
  | .sFmulH ri j k => Sys2Proof.Machine.execSFmulH ri j k s
  | .sFmulR ri j k => Sys2Proof.Machine.execSFmulR ri j k s
  | .vFmulSv ri j k => Sys2Proof.Machine.execVFmulSv ri j k s
  | .vFmulVv ri j k => Sys2Proof.Machine.execVFmulVv ri j k s
  | .vFmulHSv ri j k => Sys2Proof.Machine.execVFmulHSv ri j k s
  | .vFmulHVv ri j k => Sys2Proof.Machine.execVFmulHVv ri j k s
  | .vFmulRSv ri j k => Sys2Proof.Machine.execVFmulRSv ri j k s
  | .vFmulRVv ri j k => Sys2Proof.Machine.execVFmulRVv ri j k s
  | .sFiter ri j k => Sys2Proof.Machine.execSFiter ri j k s
  | .sFrecip ri j => Sys2Proof.Machine.execSFrecip ri j s
  | .vFrecip ri j => Sys2Proof.Machine.execVFrecip ri j s
  | .vFiterSv ri j k => Sys2Proof.Machine.execVFiterSv ri j k s
  | .vImul32 ri j k => Sys2Proof.Machine.execVImul32 ri j k s
  | .vFiterVv ri j k => Sys2Proof.Machine.execVFiterVv ri j k s
  | .sAnd ri j k => Sys2Proof.Machine.execSAnd ri j k s
  | .sAndn ri j k => Sys2Proof.Machine.execSAndn ri j k s
  | .sXor ri j k => Sys2Proof.Machine.execSXor ri j k s
  | .sXnor ri j k => Sys2Proof.Machine.execSXnor ri j k s
  | .sMerge ri j k => Sys2Proof.Machine.execSMerge ri j k s
  | .sOr ri j k => Sys2Proof.Machine.execSOr ri j k s
  | .vAndSv ri j k => Sys2Proof.Machine.execVAndSv ri j k s
  | .vAndVv ri j k => Sys2Proof.Machine.execVAndVv ri j k s
  | .vOrSv ri j k => Sys2Proof.Machine.execVOrSv ri j k s
  | .vOrVv ri j k => Sys2Proof.Machine.execVOrVv ri j k s
  | .vXorSv ri j k => Sys2Proof.Machine.execVXorSv ri j k s
  | .vXorVv ri j k => Sys2Proof.Machine.execVXorVv ri j k s
  | .vMergeSv ri j k => Sys2Proof.Machine.execVMergeSv ri j k s
  | .vMergeVv ri j k => Sys2Proof.Machine.execVMergeVv ri j k s
  | .vmTestZ j => Sys2Proof.Machine.execVmTestZ j s
  | .vmTestN j => Sys2Proof.Machine.execVmTestN j s
  | .vmTestP j => Sys2Proof.Machine.execVmTestP j s
  | .vmTestM j => Sys2Proof.Machine.execVmTestM j s
  | .vmCidxZ ri j => Sys2Proof.Machine.execVmCidxZ ri j s
  | .vmCidxN ri j => Sys2Proof.Machine.execVmCidxN ri j s
  | .vmCidxP ri j => Sys2Proof.Machine.execVmCidxP ri j s
  | .vmCidxM ri j => Sys2Proof.Machine.execVmCidxM ri j s
  | .s0Shl ri jk => Sys2Proof.Machine.execS0Shl ri jk s
  | .s0Shr ri jk => Sys2Proof.Machine.execS0Shr ri jk s
  | .sShl ri jk => Sys2Proof.Machine.execSShl ri jk s
  | .sShr ri jk => Sys2Proof.Machine.execSShr ri jk s
  | .sDshl ri j k => Sys2Proof.Machine.execSDshl ri j k s
  | .sDshr ri j k => Sys2Proof.Machine.execSDshr ri j k s
  | .vShl ri j k => Sys2Proof.Machine.execVShl ri j k s
  | .vShr ri j k => Sys2Proof.Machine.execVShr ri j k s
  | .vDshl ri j k => Sys2Proof.Machine.execVDshl ri j k s
  | .vDshr ri j k => Sys2Proof.Machine.execVDshr ri j k s
  | .aPop ri j => Sys2Proof.Machine.execAPop ri j s
  | .aParity ri j => Sys2Proof.Machine.execAParity ri j s
  | .aLzc ri j => Sys2Proof.Machine.execALzc ri j s
  | .vPop ri j => Sys2Proof.Machine.execVPop ri j s
  | .vParity ri j => Sys2Proof.Machine.execVParity ri j s
  | .jB jk => Sys2Proof.Machine.execJB jk s
  | .jExp exp => Sys2Proof.Machine.execJExp exp s
  | .jaz exp => Sys2Proof.Machine.execJaz exp s
  | .jan exp => Sys2Proof.Machine.execJan exp s
  | .jap exp => Sys2Proof.Machine.execJap exp s
  | .jam exp => Sys2Proof.Machine.execJam exp s
  | .jsz exp => Sys2Proof.Machine.execJsz exp s
  | .jsn exp => Sys2Proof.Machine.execJsn exp s
  | .jsp exp => Sys2Proof.Machine.execJsp exp s
  | .jsm exp => Sys2Proof.Machine.execJsm exp s
  | .rExp exp => Sys2Proof.Machine.execRExp exp s
  | .ex => Sys2Proof.Machine.execEx s
  | .err => Sys2Proof.Machine.execErr s
  | .pass => Sys2Proof.Machine.execPass s
  | .chCa j k => Sys2Proof.Machine.execChCa j k s
  | .chCl j k => Sys2Proof.Machine.execChCl j k s
  | .chCi j => Sys2Proof.Machine.execChCi j s
  | .chMc j => Sys2Proof.Machine.execChMc j s
  | .xaFromA j => Sys2Proof.Machine.execXaFromA j s
  | .rtcLoad j => Sys2Proof.Machine.execRtcLoad j s
  | .pciLoad j => Sys2Proof.Machine.execPciLoad j s
  | .cci => Sys2Proof.Machine.execCci s
  | .eci => Sys2Proof.Machine.execEci s
  | .sipi j => Sys2Proof.Machine.execSipi j s
  | .dci => Sys2Proof.Machine.execDci s
  | .cipi => Sys2Proof.Machine.execCipi s
  | .clnLoad j => Sys2Proof.Machine.execClnLoad j s
  | .eri => Sys2Proof.Machine.execEri s
  | .dri => Sys2Proof.Machine.execDri s
  | .aFromCi ri => Sys2Proof.Machine.execAFromCi ri s
  | .aFromCa ri j => Sys2Proof.Machine.execAFromCa ri j s
  | .aFromCe ri j => Sys2Proof.Machine.execAFromCe ri j s

end Sys2Proof.Machine
end

