-- ==== Sys2Proof/Machine/Cycle.lean ====
section
/-! DEFINITION. One step of the machine: what happens outside at this boundary (log 3), then the boundary of the CPU
that moves (60_exceptions.md R530): its flags, an exchange if any is set, else the instruction at P. Also the
placing of an instruction where the next step fetches it. -/

namespace Sys2Proof.Machine

open Sys2Proof

/-! ## Events of the world outside (log 3) -/

/-- Change the CPU with processor number `p`. -/
def State.updateCpu (s : State) (p : BitVec 3) (f : Cpu → Cpu) : State :=
  { s with cpu := if s.cpu.pn = p then f s.cpu else s.cpu
           others := s.others.map fun c => if c.pn = p then f c else c }

/-- One clock period of a programmable clock (60_exceptions.md R552): it reloads from II and requests on reaching 0. -/
def Cpu.tick (c : Cpu) : Except Stop Cpu :=
  if c.pc = 0 then .error (.refuse .clockAtZero)
  else if c.pc = 1 then .ok { c with pc := c.ii, pciRequest := true }
  else .ok { c with pc := c.pc - 1 }

/-- `Cpu.tick` of a list. -/
def tickAll (l : List Cpu) : Except Stop (List Cpu) :=
  match l with
  | [] => .ok []
  | c :: rest =>
    match c.tick with
    | .error e => .error e
    | .ok d =>
      match tickAll rest with
      | .error e => .error e
      | .ok ds => .ok (d :: ds)

/-- One clock period (R550, R552): of every CPU's clock, started or not, and one at 0 stops the machine (log 26). -/
def State.tick (s : State) : Except Stop State :=
  match s.cpu.tick with
  | .error e => .error e
  | .ok c =>
    match tickAll s.others with
    | .error e => .error e
    | .ok ds => .ok { s with cpu := c, others := ds, rtc := s.rtc + 1 }

/-- The next CPU of the ring becomes the one that moves (60_exceptions.md R565; log 29). -/
def State.turn (s : State) : State :=
  match s.others with
  | [] => s
  | c :: rest => { s with cpu := c, others := rest ++ [s.cpu] }

/-- The end of a transfer (60_exceptions.md R560). -/
def Channel.finish (c : Channel) (err : Bool) : Channel :=
  { c with active := false, intFlag := true, errFlag := c.errFlag || err }

/-- One pass of a channel agent's loop (R560): the end when CA = CL, else one word and CA + 1. -/
def State.chanStep (s : State) (ch : Addr) (w : Word) : Except Stop State :=
  match s.channel ch with
  | none => .ok s
  | some c =>
    if !c.active then .ok s
    else if c.ca = c.cl then .ok (s.setChannel ch fun c => c.finish false)
    else if s.params.memWords ≤ c.ca.toNat then .error (.fault .beyondMemory)
    else
      let t := s.setChannel ch fun c => { c with ca := c.ca + 1 }
      match c.dir with
      | .input => .ok (t.memWrite c.ca.toNat w)
      | .output => .ok t

/-- A pass of an output channel's loop that reads a word with an error; CPU `p` is told (60_exceptions.md R524). -/
def State.chanReadError (s : State) (ch : Addr) (p : BitVec 3) (kind : MemErrKind) (info : MemErrInfo) :
    Except Stop State :=
  match s.channel ch with
  | none => .ok s
  | some c =>
    if c.active && c.ca != c.cl && c.dir == .output then
      (s.updateCpu p fun c => c.noteMemError kind info).chanStep ch 0
    else .ok s

/-- A parity error in a register: its contents become `d`, and the error is an uncorrectable one (R519, R524). -/
def Cpu.parityError (c : Cpu) (reg : ParityReg) (info : MemErrInfo) (d : Word) : Cpu :=
  let c := c.noteMemError .uncorrectable info
  match reg with
  | .a i => { c with a := regPut c.a i (amask c.m.eam (d.setWidth 32)) }
  | .b n => { c with b := regPut c.b n (amask c.m.eam (d.setWidth 32)) }
  | .s i => { c with s := regPut c.s i d }
  | .t n => { c with t := regPut c.t n d }
  | .v i e => { c with v := regPut c.v i (regPut (regGet c.v i) e d) }

/-- A channel agent ends an active transfer with an error instead of moving a word (R560): at CA = CL no word is left to
move, and the transfer ends without one. -/
def State.chanError (s : State) (ch : Addr) : State :=
  s.setChannel ch fun c => if c.active then c.finish (c.ca != c.cl) else c

/-- An input device holds ready (10_state.md R55). -/
def State.holdReady (s : State) (ch : Addr) : State :=
  s.setChannel ch fun c =>
    match c.dir with
    | .input => { c with readyHeld := true }
    | .output => c

/-- The IOS deadstarts a CPU (70_reset_and_hazards.md R580): requests cleared, the clock interrupt disabled, XA
given; its exchange comes when it next moves (log 5). -/
def Cpu.startAt (c : Cpu) (xa : BitVec 8) : Cpu :=
  { c with started := true
           deadstart := true
           xa := xa
           holding := none
           pciEnabled := false
           pciRequest := false
           ipiRequest := false }

/-- One event. -/
def State.happen (s : State) (e : Event) : Except Stop State :=
  match e with
  | .tick => s.tick
  | .turn => .ok s.turn
  | .mcu p => .ok (s.updateCpu p Cpu.raiseMcu)
  | .readError e => .ok { s with readErrors := s.readErrors ++ [e] }
  | .parityError p reg info => .ok ((s.updateCpu p fun c => c.parityError reg info (s.drawAt 0)).drawn 1)
  | .chanStep ch w => s.chanStep ch w
  | .chanReadError ch p kind info => s.chanReadError ch p kind info
  | .chanError ch => .ok (s.chanError ch)
  | .readyHeld ch => .ok (s.holdReady ch)
  | .deadstart p xa => .ok (s.updateCpu p fun c => c.startAt xa)

/-- A batch of events, in order. -/
def State.happenAll (s : State) (l : List Event) : Except Stop State :=
  match l with
  | [] => .ok s
  | e :: rest =>
    match s.happen e with
    | .error x => .error x
    | .ok t => State.happenAll t rest

/-- The batch of this boundary happens; the errors of the last step's reads are over. -/
def State.deliver (s : State) : Except Stop State :=
  match s.agenda with
  | [] => .ok { s with readErrors := [] }
  | batch :: rest => ({ s with agenda := rest, readErrors := [] } : State).happenAll batch

/-! ## The boundary (R530) -/

/-- A CPU that executes: started, its deadstart exchange done. -/
def Cpu.running (c : Cpu) : Bool := c.started && !c.deadstart

/-- A CPU able to take an I/O interrupt (R520). -/
def Cpu.takesIo (c : Cpu) : Bool := c.running && userGate c.m

/-- Some channel that requests an interrupt may interrupt the CPU (R520, ChannelConfig). -/
def State.servedBy (s : State) (c : Cpu) : Bool := s.channels.any fun ch => ch.intFlag && ch.serves.contains c.pn

/-- The processor numbers from which R520 chooses: of the able CPUs that a requesting channel may interrupt those with
SEI if there are any, else all. -/
def State.ioCandidates (s : State) : List (BitVec 3) :=
  let able := (s.cpu :: s.others).filter fun c => c.takesIo && s.servedBy c
  let selected := able.filter fun c => c.m.sei
  (if selected.isEmpty then able else selected).map Cpu.pn

/-- The level condition of R520: while a channel requests, F.IOI of one candidate, by a draw if there are several. -/
def State.routeIo (s : State) : State :=
  match s.ioCandidates with
  | [] => s
  | [p] => s.updateCpu p Cpu.raiseIoi
  | p :: q :: rest =>
    (s.updateCpu ((p :: q :: rest).getD ((s.drawAt 0).toNat % (rest.length + 2)) p) Cpu.raiseIoi).drawn 1

/-- A CPU is holding issue on a semaphore that is still 1 (log 22). -/
def Cpu.stuck (c : Cpu) (cl : Cluster) : Bool :=
  match c.holding with
  | some jk => cl.smIsSet jk
  | none => false

/-- `deadlock(CLN)` (R513): every running CPU of the cluster is holding issue on a test and set. -/
def State.deadlocked (s : State) : Bool :=
  s.cpu.cln != 0 && s.cpu.stuck s.cluster
    && s.others.all fun c => !(c.running && c.cln == s.cpu.cln) || c.stuck s.cluster

/-- F.DL of a running CPU of cluster `c` whose gate is open (R513). -/
def Cpu.seeDeadlock (c : BitVec 4) (x : Cpu) : Cpu :=
  if x.running && x.cln == c && immGate x.m then x.raiseDl else x

/-- A deadlock of the cluster sets F.DL of every CPU in it whose gate is open (R513). -/
def State.checkDeadlock (s : State) : State :=
  if s.deadlocked then
    { s with cpu := s.cpu.seeDeadlock s.cpu.cln, others := s.others.map (Cpu.seeDeadlock s.cpu.cln) }
  else s

/-- The flags a boundary finds: requests (R512, R514), I/O (R520), deadlock (R513). -/
def State.atBoundary (s : State) : State := ((s.withCpu s.cpu.seeRequests).routeIo).checkDeadlock

/-! ## Fetch (20_memory.md R88, R89, R104) -/

/-- The absolute word address of a parcel. -/
def State.fetchAddr (s : State) (p : PAddr) : Nat := (p >>> 2).toNat + s.cpu.iba.toNat

/-- Parcel `q` of a word, 0 leftmost (R84). -/
def wordParcel (w : Word) (q : Nat) : Parcel := w.extractLsb' (48 - 16 * q) 16

/-- The number of a parcel in its word. -/
def parcelNumber (p : PAddr) : Nat := (p.extractLsb' 0 2).toNat

/-- `FetchParcel` (R88) of the instruction's parcel `n`: the parcel and the state after the read; none is a program
range error. -/
def State.fetchParcel (s : State) (n : Nat) : Except Stop (Option (Parcel × State)) :=
  let p := s.cpu.p + BitVec.ofNat 24 n
  let abs := s.fetchAddr p
  if s.cpu.ila.toNat < abs then .ok none
  else if abs = s.cpu.ila.toNat then .error (.refuse .limitEquality)
  else if s.params.memWords ≤ abs then .error (.fault .beyondMemory)
  else if s.channelBusy abs then .error (.fault .channelRace)
  else if s.stale abs then .error (.fault .staleFetch)
  else
    let l := s.errorsAt (.fetch n)
    let w := delivered l (s.drawAt 0) (Memory.readWord s.mem abs)
    .ok (some (wordParcel w (parcelNumber p), s.afterReads l 1))

/-- `raise ProgramRange` (60_exceptions.md R518): nothing issues, P stays; refused when the gate is closed. -/
def State.programRange (s : State) : Out :=
  if immGate s.cpu.m then .next (s.withCpu s.cpu.raisePre) else .refused .fetchInhibited

/-- Fetch one parcel and go on with it and the state after its read, or with the program range error. -/
def State.withParcel (s : State) (n : Nat) (k : Parcel → State → Out) : Out :=
  orStop (s.fetchParcel n) fun x =>
    match x with
    | none => s.programRange
    | some (p, t) => k p t

/-- Issue a decoded instruction; no row is refused (30_encoding.md R131). -/
def State.issueDecoded (s : State) (p0 m n : Parcel) : Out :=
  match decode s.cpu.m.eam p0 m n with
  | some i => exec i s
  | none => .refused (.unassigned p0)

/-- Fetch the instruction at P, each parcel checked on its own (R89), and issue it. -/
def State.fetchAndIssue (s : State) : Out :=
  s.withParcel 0 fun p0 s =>
    if instrLength p0 s.cpu.m.eam = 1 then s.issueDecoded p0 0 0
    else s.withParcel 1 fun m s =>
      if instrLength p0 s.cpu.m.eam = 2 then s.issueDecoded p0 m 0
      else s.withParcel 2 fun n s => s.issueDecoded p0 m n

/-- The CPU issues: a test and set that is holding is tried again, without a fetch, else the instruction at P. -/
def State.issue (s : State) : Out :=
  match s.cpu.holding with
  | some jk => exec (.smTs jk) s
  | none => s.fetchAndIssue

/-- The boundary of a running CPU (R530). -/
def State.boundary (s : State) : Out :=
  let t := s.atBoundary
  if t.cpu.f.any then t.exchangeSequence else t.issue

/-- What the CPU that moves does: nothing before it is started; its deadstart exchange; its boundary. -/
def State.act (s : State) : Out :=
  if !s.cpu.started then .next s
  else if s.cpu.deadstart then s.exchangeSequence
  else s.boundary

/-- One step: the batch of events, then the CPU that moves. -/
def cycle (s : State) : Out := orStop s.deliver State.act

/-! ## Placing an instruction where the next step fetches it -/

/-- A word with parcel `q` replaced. -/
def setParcel (w : Word) (q : Nat) (p : Parcel) : Word :=
  (w &&& ~~~((0xFFFF : Word) <<< (48 - 16 * q))) ||| (p.setWidth 64 <<< (48 - 16 * q))

/-- Memory with a parcel replaced at a program-relative parcel address. -/
def State.placeParcel (s : State) (p : PAddr) (x : Parcel) : State :=
  { s with mem := Memory.writeWord s.mem (s.fetchAddr p)
                    (setParcel (Memory.readWord s.mem (s.fetchAddr p)) (parcelNumber p) x) }

/-- The three parcels at P can be fetched: inside the instruction range and inside memory. -/
def State.fetchFits (s : State) : Bool :=
  [0, 1, 2].all fun n =>
    let a := s.fetchAddr (s.cpu.p + BitVec.ofNat 24 n)
    decide (a < s.cpu.ila.toNat) && decide (a < s.params.memWords)

/-- What the fetch needs (log 5): the instruction's address mode, a running CPU with no flag, request, hold or event
in the way, an instruction range that covers P (else one at word 0 over all memory), no channel transfer or interrupt
under way, no record of a write to the instruction's words. -/
def State.readyToFetch (s : State) (eam : Bool) : State :=
  let c := { s.cpu with
    started := true
    deadstart := false
    f := Flags.none
    m := { s.cpu.m with eam := eam }
    ipiRequest := false
    pciRequest := false
    holding := none
    intervalStart := s.writeClock }
  let t := { s with
    cpu := c
    agenda := []
    channels := s.channels.map fun ch => { ch with active := false, intFlag := false } }
  if t.fetchFits then t
  else t.withCpu { c with p := 0, iba := 0, ila := BitVec.ofNat 32 s.params.memWords }

/-- The state with a table word's instruction stored at P, in a machine ready to fetch it. -/
def State.placeTableWord (s : State) (nbits w : Nat) : State :=
  let t := s.readyToFetch (tableEam nbits w)
  let t := t.placeParcel t.cpu.p (tableParcel nbits w 0)
  let t := t.placeParcel (t.cpu.p + 1) (tableParcel nbits w 1)
  t.placeParcel (t.cpu.p + 2) (tableParcel nbits w 2)

end Sys2Proof.Machine
end

