-- ==== Sys2Proof/Machine/Step.lean ====
section
/-! DEFINITION. The step, and the placing of an instruction for it; both are written in Cycle.lean. -/

namespace Sys2Proof.Machine

/-- One step of the machine (60_exceptions.md R530). -/
def step : State → Host.Outcome State Fault Refusal := fun s => cycle s

/-- The state with the instruction of a table word where `step` fetches next (log 5). -/
def State.withFetchWord (s : State) (nbits w : Nat) : State := s.placeTableWord nbits w

end Sys2Proof.Machine
end

