-- ==== Sys2Proof/Safety.lean ====
section
/-! DEFINITION. The terms in which claims are stated: the invariant every step keeps, what it means that an
instruction completes with a result and leaves the rest of the machine alone (its frame), and the arithmetic of the
floating-point rules (44_floating_point.md R313 to R321) written as relations, apart from the functions that compute
it, and what a fair run is (70_reset_and_hazards.md R599). -/

namespace Sys2Proof.Machine

open Sys2Proof

/-! ## The invariant -/

/-- What holds of the machine at reset and after every step: memory is canonical, the parameters are admissible, every
CPU's VL is at most 64 (10_state.md R25) and its cluster number exists (R38), the processor numbers are distinct, below
NCPU and NCPU in number (R47), channel numbers are distinct (R55), and the model's record of writes is coherent
(log 12). -/
structure State.Inv (s : State) : Prop where
  mem : Memory.wf s.mem = true
  params : s.params.wf = true
  vl : ∀ c ∈ s.cpu :: s.others, c.vl.toNat ≤ 64
  cln : ∀ c ∈ s.cpu :: s.others, c.cln.toNat ≤ s.params.ncluster
  pns : ((s.cpu :: s.others).map Cpu.pn).Nodup
  pn : ∀ c ∈ s.cpu :: s.others, c.pn.toNat < s.params.ncpu
  count : (s.cpu :: s.others).length = s.params.ncpu
  channels : (s.channels.map Channel.num).Nodup
  words : (s.writeLog.map fun e => e.1).Nodup
  stamps : ∀ e ∈ s.writeLog, e.2 < s.writeClock
  intervals : ∀ c ∈ s.cpu :: s.others, c.intervalStart ≤ s.writeClock

/-! ## Frames -/

/-- Every byte of memory reads as before. -/
def SameBytes (s t : State) : Prop := ∀ x, Memory.readByte t.mem x = Memory.readByte s.mem x

/-- Every byte of memory that lies in none of these words reads as before. -/
def SameBytesOutside (s t : State) (words : Nat → Prop) : Prop :=
  ∀ x, ¬ words (x / 8) → Memory.readByte t.mem x = Memory.readByte s.mem x

/-- P is `n` parcels further on, modulo 2^24 (00_scope.md R17). -/
def Moved (s t : State) (n : Nat) : Prop := t.cpu.p.toNat = (s.cpu.p.toNat + n) % 2 ^ 24

/-- The outcome is a next state that differs from `s` in P alone, `n` parcels on. -/
def Passes (o : Out) (s : State) (n : Nat) : Prop :=
  ∃ t, o = .next t ∧ Moved s t n ∧ t = { s with cpu := { s.cpu with p := t.cpu.p } } ∧ SameBytes s t

/-- The outcome is a next state whose A register `i` satisfies `q`; nothing else differs but P, `n` parcels on. -/
def GivesA (o : Out) (s : State) (i : BitVec 3) (n : Nat) (q : Addr → Prop) : Prop :=
  ∃ t, o = .next t ∧ q (regGet t.cpu.a i) ∧ Moved s t n ∧ (∀ r, r ≠ i → regGet t.cpu.a r = regGet s.cpu.a r) ∧
    t = { s with cpu := { s.cpu with a := t.cpu.a, p := t.cpu.p } } ∧ SameBytes s t

/-- As `GivesA`, for a B register. -/
def GivesB (o : Out) (s : State) (i : BitVec 6) (n : Nat) (q : Addr → Prop) : Prop :=
  ∃ t, o = .next t ∧ q (regGet t.cpu.b i) ∧ Moved s t n ∧ (∀ r, r ≠ i → regGet t.cpu.b r = regGet s.cpu.b r) ∧
    t = { s with cpu := { s.cpu with b := t.cpu.b, p := t.cpu.p } } ∧ SameBytes s t

/-- As `GivesA`, for an S register. -/
def GivesS (o : Out) (s : State) (i : BitVec 3) (n : Nat) (q : Word → Prop) : Prop :=
  ∃ t, o = .next t ∧ q (regGet t.cpu.s i) ∧ Moved s t n ∧ (∀ r, r ≠ i → regGet t.cpu.s r = regGet s.cpu.s r) ∧
    t = { s with cpu := { s.cpu with s := t.cpu.s, p := t.cpu.p } } ∧ SameBytes s t

/-- As `GivesA`, for a T register. -/
def GivesT (o : Out) (s : State) (i : BitVec 6) (n : Nat) (q : Word → Prop) : Prop :=
  ∃ t, o = .next t ∧ q (regGet t.cpu.t i) ∧ Moved s t n ∧ (∀ r, r ≠ i → regGet t.cpu.t r = regGet s.cpu.t r) ∧
    t = { s with cpu := { s.cpu with t := t.cpu.t, p := t.cpu.p } } ∧ SameBytes s t

/-- The elements of Vi below VL satisfy `q`, the others and the other V registers are kept (41 R205). -/
def VectorIs (s t : State) (i : BitVec 3) (q : BitVec 6 → Word → Prop) : Prop :=
  (∀ e : BitVec 6, e.toNat < s.cpu.vl.toNat → q e (t.velem i e)) ∧
  (∀ e : BitVec 6, s.cpu.vl.toNat ≤ e.toNat → t.velem i e = s.velem i e) ∧
  (∀ r, r ≠ i → regGet t.cpu.v r = regGet s.cpu.v r)

/-- The outcome is a next state in which the elements of Vi below VL satisfy `q` and `vused` is set; nothing else
differs but P, one parcel on. -/
def GivesV (o : Out) (s : State) (i : BitVec 3) (q : BitVec 6 → Word → Prop) : Prop :=
  ∃ t, o = .next t ∧ VectorIs s t i q ∧ Moved s t 1 ∧
    t = { s with cpu := { s.cpu with v := t.cpu.v, vused := true, p := t.cpu.p } } ∧ SameBytes s t

/-- What a floating-point range error does to M and F, and that nothing else of them changes (60_exceptions.md R516). -/
def ReportsRange (s t : State) (err : Prop) : Prop :=
  t.cpu.m = { s.cpu.m with fps := t.cpu.m.fps } ∧ t.cpu.f = { s.cpu.f with fpe := t.cpu.f.fpe } ∧
  (t.cpu.m.fps = true ↔ s.cpu.m.fps = true ∨ err) ∧
  (t.cpu.f.fpe = true ↔
    s.cpu.f.fpe = true ∨ (err ∧ s.cpu.m.ifp = true ∧ (s.cpu.m.mm = false ∨ s.cpu.m.imm = true)))

/-- The outcome is a next state whose S register `i` and range error satisfy `q`; nothing else differs but P, one
parcel on, what the error reports, and the count of free values passed over. -/
def GivesSFp (o : Out) (s : State) (i : BitVec 3) (q : Word → Bool → Prop) : Prop :=
  ∃ t err, o = .next t ∧ q (regGet t.cpu.s i) err ∧ ReportsRange s t (err = true) ∧ Moved s t 1 ∧
    (∀ r, r ≠ i → regGet t.cpu.s r = regGet s.cpu.s r) ∧
    t = { s with cpu := { s.cpu with s := t.cpu.s, p := t.cpu.p, m := t.cpu.m, f := t.cpu.f }, draws := t.draws } ∧
    SameBytes s t

/-- As `GivesSFp` for the elements of Vi below VL, each with its own error; the errors are reported together. -/
def GivesVFp (o : Out) (s : State) (i : BitVec 3) (q : BitVec 6 → Word → Bool → Prop) : Prop :=
  ∃ (t : State) (err : BitVec 6 → Bool), o = .next t ∧ VectorIs s t i (fun e w => q e w (err e)) ∧
    ReportsRange s t (∃ e : BitVec 6, e.toNat < s.cpu.vl.toNat ∧ err e = true) ∧ Moved s t 1 ∧
    t = { s with cpu := { s.cpu with v := t.cpu.v, vused := true, p := t.cpu.p, m := t.cpu.m, f := t.cpu.f },
                 draws := t.draws } ∧
    SameBytes s t

/-- The outcome is a next state in which P is at `target`; nothing else differs. -/
def JumpsTo (o : Out) (s : State) (target : PAddr) : Prop :=
  ∃ t, o = .next t ∧ t.cpu.p = target ∧ t = { s with cpu := { s.cpu with p := target } } ∧ SameBytes s t

/-! ## References -/

/-- A reference of the CPU to absolute word `a` is made: below the limit, installed, outside every active channel's
range, and unordered with no earlier reference (20_memory.md R86, R98, R103). -/
def Reaches (s : State) (block write : Bool) (a : Nat) : Prop :=
  a < s.cpu.dla.toNat ∧ a < s.params.memWords ∧ s.channelBusy a = false ∧
    ∀ y ∈ s.cpu.refs, s.cpu.unordered y { addr := a, block := block, write := write } = false

/-- The absolute word that the program-relative address `ea` names (R86). -/
def State.wordOf (s : State) (ea : Addr) : Nat := ea.toNat + s.cpu.dba.toNat

/-- Every element of a block reference is made. -/
def ReachesAll (s : State) (write : Bool) (eas : List Addr) : Prop := ∀ ea ∈ eas, Reaches s true write (s.wordOf ea)

/-- Every element is made or aborted, and some element is aborted (R86, R94). -/
def ReachesSome (s : State) (write : Bool) (eas : List Addr) : Prop :=
  (∀ ea ∈ eas, s.cpu.dla.toNat < s.wordOf ea ∨ Reaches s true write (s.wordOf ea)) ∧
  ∃ ea ∈ eas, s.cpu.dla.toNat < s.wordOf ea

/-- What an operand range error does to F, and that nothing else of it changes (60_exceptions.md R517). -/
def ReportsOperandRange (s t : State) : Prop :=
  t.cpu.f = { s.cpu.f with ore := t.cpu.f.ore } ∧
  (t.cpu.f.ore = true ↔
    s.cpu.f.ore = true ∨ (s.cpu.m.ior = true ∧ (s.cpu.m.mm = false ∨ s.cpu.m.imm = true)))

/-- The interrupt on a memory error of that kind is enabled (R519). -/
def MemErrEnabled (m : Mode) (k : MemErrKind) : Prop :=
  match k with
  | .correctable => m.icm = true
  | .uncorrectable => m.ium = true

/-- What reads with the errors `l` do to a CPU's error state (R519, R524): a sticky bit for each kind that occurs; F.ME,
and the data of an enabled error recorded, if an error is enabled; no other flag. -/
def ErrorsSeen (c d : Cpu) (l : List ReadError) : Prop :=
  (d.cmeSeen = true ↔ c.cmeSeen = true ∨ ∃ e ∈ l, e.kind = .correctable) ∧
  (d.umeSeen = true ↔ c.umeSeen = true ∨ ∃ e ∈ l, e.kind = .uncorrectable) ∧
  d.f = { c.f with me := d.f.me } ∧ (d.f.me = true ↔ c.f.me = true ∨ ∃ e ∈ l, MemErrEnabled c.m e.kind) ∧
  ((∃ e ∈ l, MemErrEnabled c.m e.kind ∧ d.memErr = some e.info) ∨
    ((∀ e ∈ l, ¬ MemErrEnabled c.m e.kind) ∧ d.memErr = c.memErr))

/-- The errors of the reads of the first `n` elements of a reference. -/
def State.operandErrors (s : State) (n : Nat) : List ReadError :=
  (List.range n).flatMap fun e => s.errorsAt (.operand e)

/-- The errors of the fetches of the first `n` parcels. -/
def State.fetchErrors (s : State) (n : Nat) : List ReadError :=
  (List.range n).flatMap fun k => s.errorsAt (.fetch k)

/-- The words that the elements of a block reference name. -/
def Names (s : State) (eas : List Addr) (w : Nat) : Prop := ∃ ea ∈ eas, w = s.wordOf ea

/-- A completed block store of `vals` at `eas`: the words the elements name and no others are written, each with the
value of the last element that names it; nothing else differs but P, the record of references and of writes. -/
def StoresInOrder (o : Out) (s : State) (vused : Bool) (eas : List Addr) (vals : List Word) : Prop :=
  ∃ t, o = .next t ∧ Moved s t 1 ∧
    (∀ (e : Nat) (ea : Addr) (v : Word), eas[e]? = some ea → vals[e]? = some v →
      (∀ (e' : Nat) (ea' : Addr), e < e' → eas[e']? = some ea' → s.wordOf ea' ≠ s.wordOf ea) →
      Memory.readWord t.mem (s.wordOf ea) = v) ∧
    SameBytesOutside s t (Names s eas) ∧
    t = { s with cpu := { s.cpu with p := t.cpu.p, refs := t.cpu.refs, vused := vused }
                 mem := t.mem, writeLog := t.writeLog, writeClock := t.writeClock }

/-! ## Instructions -/

/-- The vector instructions (41 R205). -/
def isVectorInstr (i : Instr) : Bool :=
  match (encode i).head? with
  | some p => decide (0o140 ≤ (p >>> 9).toNat)
  | none => false

/-- The fetch of the parcel at `p` is made (20_memory.md R88, R104). -/
def Fetches (s : State) (p : PAddr) : Prop :=
  s.fetchAddr p < s.cpu.ila.toNat ∧ s.fetchAddr p < s.params.memWords ∧ s.channelBusy (s.fetchAddr p) = false ∧
    s.stale (s.fetchAddr p) = false

/-- The parcel in memory at parcel address `p` (20_memory.md R84, R88). -/
def State.parcelAt (s : State) (p : PAddr) : Parcel :=
  wordParcel (Memory.readWord s.mem (s.fetchAddr p)) (parcelNumber p)

/-- An exchange goes on: the package is installed, no channel is at work on it, and it holds an admissible VL and
cluster number (60_exceptions.md R531, 20_memory.md R103). -/
def CanExchange (s : State) : Prop :=
  s.cpu.packageBase + 15 < s.params.memWords ∧ s.packageBusy = false ∧
  ((readField s.params.xp s.package .vl).setWidth 7 : BitVec 7).toNat ≤ 64 ∧
  ((readField s.params.xp s.package .cln).setWidth 4 : BitVec 4).toNat ≤ s.params.ncluster

/-- What a package under the layout of `s` holds in field `f` is `w`, as much of it as the field is wide. -/
def Holds (s : State) (img : PackageImage) (f : XPField) (w : Word) : Prop :=
  (readField s.params.xp img f).toNat = w.toNat % 2 ^ (s.params.xp.slot f).width

/-- A base or limit register can be stored in its field without loss: a multiple of the grain that fits BLWidth
(00_scope.md R7). -/
def Storable (s : State) (b : BitVec 32) : Prop :=
  b.toNat % 2 ^ s.params.blGrain = 0 ∧ b.toNat / 2 ^ s.params.blGrain < 2 ^ s.params.blWidth

/-! ## Counts -/

/-- The number of ones of a word. -/
def countOnes (w : Word) : Nat := (List.range 64).countP fun b => w.getLsbD b

/-- `n` is the number of zeros to the left of the leftmost one; 64 for the zero word (47_bit_count.md R432). -/
def IsLeadingZeros (w : Word) (n : Nat) : Prop :=
  (w = 0 ∧ n = 64) ∨ (n < 64 ∧ w.getLsbD (63 - n) = true ∧ ∀ b, 63 - n < b → w.getLsbD b = false)

/-! ## Floating point as relations (44_floating_point.md) -/

/-- The range check of the add and multiply units (R319): zero and underflow give the zero word, overflow the exponent
60000 octal and an error, any other result is delivered as it is. -/
def RangeChecked (r : FPRaw) (w : Word) (err : Bool) : Prop :=
  if r = rawZero ∨ r.exp ≤ 0o17777 then w = 0 ∧ err = false
  else fpSign w = r.sign ∧ fpCoef w = r.coef.toNat ∧
    if 0o60000 ≤ r.exp then fpExp w = 0o60000 ∧ err = true else (fpExp w : Int) = r.exp ∧ err = false

/-- The signed coefficient of an operand after `d` of its low bits are shifted out. -/
def alignedCoef (w : Word) (d : Nat) : Int := if fpSign w then -((fpCoef w / 2 ^ d : Nat) : Int) else (fpCoef w / 2 ^ d : Nat)

/-- R313's algorithm as a relation: the coefficients aligned at the larger exponent are added as integers; a sum of 49
bits loses its lowest and raises the exponent, any other nonzero sum is normalized, a zero sum is the raw zero. -/
def SumOf (a b : Word) (r : FPRaw) : Prop :=
  let x := max (fpExp a) (fpExp b)
  let n := alignedCoef a (x - fpExp a) + alignedCoef b (x - fpExp b)
  if n = 0 then r = rawZero
  else r.sign = decide (n < 0) ∧ 2 ^ 47 ≤ r.coef.toNat ∧
    if 2 ^ 48 ≤ n.natAbs then r.exp = x + 1 ∧ r.coef.toNat = n.natAbs / 2
    else ∃ z : Nat, r.exp = (x : Int) - z ∧ r.coef.toNat = n.natAbs * 2 ^ z

/-- R313's constraints on a sum, and R325's: operands that differ in the sign alone give the raw zero. -/
def SumOk (a b : Word) (r : FPRaw) : Prop :=
  (isNegZero a = false → isNegZero b = false → addInRange a = true → addInRange b = true → SumOf a b r) ∧
  (r.coef ≠ 0 → 2 ^ 47 ≤ r.coef.toNat) ∧
  (r.coef = 0 → isNegZero a = false → isNegZero b = false → r = rawZero) ∧
  (b = a ^^^ BitVec.ofNat 64 (2 ^ 63) → r = rawZero)

/-- A natural number within one of another. -/
def WithinOne (c kept : Nat) : Prop := c ≤ kept + 1 ∧ kept ≤ c + 1

/-- The exact product of the coefficients. -/
def coefProduct (a b : Word) : Nat := fpCoef a * fpCoef b

/-- R314's constraint (2), with (4): for normalized operands with nonzero exponent fields, the exponent, and the kept
48 bits of the exact product (its upper 48, or the 48 after the one-place shift) within one, unless they are all ones,
where a carry would leave the coefficient. `exact` says when the kept bits are the coefficient itself. -/
def ProductOf (a b : Word) (exact : Bool → Prop) (r : FPRaw) : Prop :=
  let p := coefProduct a b
  let shift := decide (p < 2 ^ 95)
  let kept := if shift then p / 2 ^ 47 else p / 2 ^ 48
  let rest := if shift then p % 2 ^ 47 else p % 2 ^ 48
  (rest = 0 → exact shift → r.coef.toNat = kept) ∧
  (kept + 1 < 2 ^ 48 ∨ (rest = 0 ∧ exact shift) →
    r.exp = (fpExp a : Int) + fpExp b - 0o40000 - (if shift then 1 else 0) ∧ WithinOne r.coef.toNat kept)

/-- The sign rule of a product, R314 (1). -/
def ProductSign (a b : Word) (r : FPRaw) : Prop := fpExp a ≠ 0 → fpExp b ≠ 0 → r.sign = (fpSign a ^^ fpSign b)

/-- Both operands normalized, both exponent fields nonzero. -/
def BothNormal (a b : Word) : Prop :=
  fpExp a ≠ 0 ∧ fpExp b ≠ 0 ∧ 2 ^ 47 ≤ fpCoef a ∧ 2 ^ 47 ≤ fpCoef b

/-- An operand is not normalized. -/
def SomeUnnormal (a b : Word) : Prop := fpCoef a < 2 ^ 47 ∨ fpCoef b < 2 ^ 47

/-- What a raw exponent says of the one-place shift of a product: the exponent is the sum, or one less after the shift
(R314). -/
def ShiftedExp (a b : Word) (shift : Bool) (r : FPRaw) : Prop :=
  r.exp = (fpExp a : Int) + fpExp b - 0o40000 - (if shift then 1 else 0)

/-- What holds of the raw product of each of the three forms: the sign rule (R314 (1)), a zero for a zero coefficient (R314
(6)), no normalized coefficient unless both operands are normalized (R311), and a negative zero only by the sign rule or
from an operand that is one (R310, log 37). -/
def ProductAny (a b : Word) (r : FPRaw) : Prop :=
  ProductSign a b r ∧ (fpCoef a = 0 ∨ fpCoef b = 0 → r.coef = 0) ∧ (SomeUnnormal a b → r.coef.toNat < 2 ^ 47) ∧
  (r.coef = 0 → r.sign = true → (fpExp a ≠ 0 ∧ fpExp b ≠ 0) ∨ isNegZero a = true ∨ isNegZero b = true)

/-- R314 (5): with an operand that is not normalized (and exponents that are not 0) the product is not normalized beyond
the one-place shift. As the model reads it (log 17): the coefficient is at most one above the upper bits of the exact
product. -/
def ShiftedOnce (a b : Word) (r : FPRaw) : Prop :=
  SomeUnnormal a b → fpExp a ≠ 0 → fpExp b ≠ 0 →
    ∃ shift, ShiftedExp a b shift r ∧ r.coef.toNat ≤ coefProduct a b / 2 ^ (if shift then 47 else 48) + 1

/-- R314's constraints on an unrounded product. -/
def ProductOk (a b : Word) (r : FPRaw) : Prop :=
  ProductAny a b r ∧ (BothNormal a b → ProductOf a b (fun _ => True) r) ∧ ShiftedOnce a b r ∧
  ∃ shift, ShiftedExp a b shift r

/-- R315's constraints on a rounded product: exact only without the one-place shift. The zero coefficient and the two
values of the exponent, R314 (6), are the model's reading: R315 names (1), (3) and (5) only (log 17). -/
def RoundedOk (a b : Word) (r : FPRaw) : Prop :=
  ProductAny a b r ∧ (BothNormal a b → ProductOf a b (fun shift => shift = false) r) ∧ ShiftedOnce a b r ∧
  (¬ BothNormal a b → ∃ shift, ShiftedExp a b shift r)

/-- R316's constraints on a half-precision product: 19 zeros below 29 bits that are within one of the upper 29 of the
exact product, normalized if both operands are (then, if both exponent fields are nonzero, with the exponent of that
normalization), after one place of shift or none otherwise. -/
def HalfOk (a b : Word) (r : FPRaw) : Prop :=
  let p := coefProduct a b
  let upper := fun (shift : Bool) => if shift then p / 2 ^ 66 else p / 2 ^ 67
  let c := r.coef.toNat / 2 ^ 19
  ProductAny a b r ∧ r.coef.toNat % 2 ^ 19 = 0 ∧ (∃ shift, ShiftedExp a b shift r) ∧
  (BothNormal a b → ShiftedExp a b (decide (p < 2 ^ 95)) r) ∧
  (¬ SomeUnnormal a b → WithinOne c (upper (decide (p < 2 ^ 95)))) ∧
  (SomeUnnormal a b → ∃ shift, ShiftedExp a b shift r ∧ WithinOne c (upper shift))

/-- R335: two operands with zero exponent fields: exponent 0, the sign rule, and the upper 48 bits of the product, exact
when the low 24 bits of both coefficients are 0, within one otherwise. -/
def IntegerProduct (a b w : Word) : Prop :=
  fpExp w = 0 ∧ fpSign w = (fpSign a ^^ fpSign b) ∧ WithinOne (fpCoef w) (coefProduct a b / 2 ^ 48) ∧
  (fpCoef a % 2 ^ 24 = 0 → fpCoef b % 2 ^ 24 = 0 → fpCoef w = coefProduct a b / 2 ^ 48)

/-- What holds of the rounded and half-precision forms' products of two zero exponent fields, which R335 leaves to the
instance: not normalized unless both operands are (R311), no negative zero unless an operand is one (R310). -/
def InstanceProduct (a b w : Word) : Prop :=
  (SomeUnnormal a b → fpCoef w < 2 ^ 47) ∧
  (fpCoef w = 0 → fpSign w = true → isNegZero a = true ∨ isNegZero b = true)

/-- As `InstanceProduct`, of the half-precision form: the low 19 coefficient bits are 0 (R316, R331). -/
def HalfInstanceProduct (a b w : Word) : Prop := InstanceProduct a b w ∧ fpCoef w % 2 ^ 19 = 0

/-- The word and error of a product: with two zero exponent fields what `zero` says and no error, else a range-checked
result that satisfies `ok`. -/
def ProductWord (zero : Word → Word → Word → Prop) (ok : Word → Word → FPRaw → Prop) (a b w : Word) (err : Bool) :
    Prop :=
  if fpExp a = 0 ∧ fpExp b = 0 then zero a b w ∧ err = false
  else ∃ r, ok a b r ∧ RangeChecked r w err

/-- R318 and R321: outside the exponents 20002 to 60001 octal, an error with exponent 60000 octal and bit 47 clear;
inside, no error, the operand's sign, a normalized coefficient, and the value 1 / value(a) (its bit 47 taken as 1) with
a relative error below 2^-29: with c, d the two coefficients and e the sum of the unbiased exponents,
|c * d * 2^e - 2^96| < 2^67. -/
def RecipOk (a w : Word) (err : Bool) : Prop :=
  if fpExp a ≤ 0o20001 ∨ 0o60002 ≤ fpExp a then err = true ∧ fpExp w = 0o60000 ∧ fpCoef w < 2 ^ 47
  else
    let d := if 2 ^ 47 ≤ fpCoef a then fpCoef a else fpCoef a + 2 ^ 47
    err = false ∧ fpSign w = fpSign a ∧ 2 ^ 47 ≤ fpCoef w ∧
    ∃ e : Nat, fpExp w + fpExp a = 0o100000 + e ∧
      2 ^ 96 < fpCoef w * d * 2 ^ e + 2 ^ 67 ∧ fpCoef w * d * 2 ^ e < 2 ^ 96 + 2 ^ 67

/-- R317: for normalized operands in range of which one is what the reciprocal approximation delivers for the other
(R350; R596: of an iteration on anything else nothing is said): no error, a positive normalized result, and within 2^-47 of
2 minus the product. With e the sum of the unbiased exponents, the product is p in units of 2^-96 (log 16). -/
def IterOk (a b w : Word) (err : Bool) : Prop :=
  let inRange := fun (x : Word) => 2 ^ 47 ≤ fpCoef x ∧ 0o20000 ≤ fpExp x ∧ fpExp x ≤ 0o57777
  inRange a → inRange b → a = (recipWord b).1 ∨ b = (recipWord a).1 →
    err = false ∧ fpSign w = false ∧ 2 ^ 47 ≤ fpCoef w ∧
    ∃ e x : Nat, fpExp a + fpExp b = 0o100000 + e ∧ x ≤ 1 ∧ fpExp w = 0o40000 + x ∧
      let p := coefProduct a b * 2 ^ e
      2 ^ 97 ≤ fpCoef w * 2 ^ (48 + x) + p + 2 ^ 49 ∧ fpCoef w * 2 ^ (48 + x) + p ≤ 2 ^ 97 + 2 ^ 49

/-! ## Runs (60_exceptions.md R565, 70_reset_and_hazards.md R599; log 29) -/

/-- All CPUs, the one that moves first. -/
def State.cpus (s : State) : List Cpu := s.cpu :: s.others

/-- What the world outside does: at each boundary a batch of events (log 3), the turns that interleave the CPUs among
them. -/
abbrev World := Nat → List Event

/-- The state of the n-th step of a run after its batch of events: its `cpu` is the CPU that moves. -/
def Delivered (w : World) (run : Nat → State) (n : Nat) (u : State) : Prop :=
  ({ run n with agenda := [w n] } : State).deliver = .ok u

/-- An endless run of the machine in a world. -/
def Run (w : World) (run : Nat → State) : Prop := ∀ n, step { run n with agenda := [w n] } = .next (run (n + 1))

/-- The fairness assumptions of R599 (and R565) on a run: every CPU that does not hold issue eventually moves, every active
channel eventually ends its transfer, the tick agent ticks again and again. (The fourth, that a request is taken at the
first boundary at which its gate is open, is what `State.boundary` does.) -/
structure Fair (w : World) (run : Nat → State) : Prop where
  moves : ∀ n, ∀ c ∈ (run n).cpus, c.holding = none → ∃ m u, n ≤ m ∧ Delivered w run m u ∧ u.cpu.pn = c.pn
  transfers : ∀ n, ∀ c ∈ (run n).channels, c.active = true →
    ∃ m u, n ≤ m ∧ Delivered w run m u ∧ ∃ d ∈ u.channels, d.num = c.num ∧ d.active = false
  ticks : ∀ n, ∃ m, n ≤ m ∧ Event.tick ∈ w m

end Sys2Proof.Machine
end

