-- ==== Sys2Proof/Certificates/Slice0/Obligations.lean ====
section
/-! DEFINITION. The statements for the provers. Sections: encoding; the machine as a whole; the instructions by
family, each statement with the completion, the result and the frame of the instructions it names; exceptions; the
agents outside the CPUs. -/

open Sys2Proof Sys2Proof.Machine

/-! ## Encoding -/

/-- A few words written out from the encodings of 30_encoding.md R122 and the rows decode to their instructions. -/
def Obligations.SampleWordsDecode : Prop :=
  decode false 0o013423 0o000005 0 = some (.aImm24 3 0x130005) ∧
  decode true 0o020100 0o177777 0o000001 = some (.aImm32 1 0x0001FFFF) ∧
  decode false 0o022305 0 0 = some (.aImm6 3 5) ∧
  decode false 0o034310 0 0 = some (.ldBBlk 3 0o10) ∧
  decode false 0o003405 0 0 = some (.smTs 5) ∧
  decode false 0o001000 0 0 = some .pass ∧
  decode false 0o166312 0 0 = some (.vFiterSv 3 1 2) ∧
  decode true 0o166312 0 0 = some (.vImul32 3 1 2)

/-- Every well-formed instruction of the current mode is read back from its encoding, whatever parcels follow it. -/
def Obligations.DecodeUndoesEncode : Prop :=
  ∀ (i : Instr) (eam : Bool) (x y p0 p1 p2 : Parcel) (rest : List Parcel),
    i.wf = true → i.inMode eam = true → encode i ++ [x, y] = p0 :: p1 :: p2 :: rest → decode eam p0 p1 p2 = some i

/-- What decodes is a well-formed instruction of the current mode, whose encoding is the parcels read, and no more
parcels than R125 gives are read: no two encodings share a meaning and no bit is ignored. -/
def Obligations.EncodeUndoesDecode : Prop :=
  ∀ (eam : Bool) (p0 p1 p2 : Parcel) (i : Instr), decode eam p0 p1 p2 = some i →
    i.wf = true ∧ i.inMode eam = true ∧ encode i = [p0, p1, p2].take (instrLength p0 eam)

/-! ## The machine as a whole -/

/-- The reset state satisfies the invariant. -/
def Obligations.ResetSatisfiesInvariant : Prop := State.reset.Inv

/-- Every step from a state that satisfies the invariant, reached or not, ends in one that does. -/
def Obligations.StepKeepsInvariant : Prop := ∀ s t : State, s.Inv → step s = .next t → t.Inv

/-- R530: after the events of the boundary, a running CPU with no flag set and no test and set held executes the
instruction whose parcels stand at P (each fetched in range, none with an uncorrectable memory error): the step is `exec`
of it and nothing more, in the state itself, or, where reads of its parcels are accompanied by correctable errors, in the
state after the CPU has noted them (R519, R524). -/
def Obligations.StepRunsDecodedInstruction : Prop :=
  ∀ (s u v : State) (i : Instr), s.deliver = .ok u → u.cpu.running = true → v = u.atBoundary →
    v.cpu.f.any = false → v.cpu.holding = none → i.wf = true →
    (∀ n, n < i.length → Fetches v (v.cpu.p + BitVec.ofNat 24 n)) →
    decode v.cpu.m.eam (v.parcelAt v.cpu.p) (v.parcelAt (v.cpu.p + 1)) (v.parcelAt (v.cpu.p + 2)) = some i →
    (v.fetchErrors i.length = [] → step s = exec i v) ∧
    (spoiled (v.fetchErrors i.length) = false →
      ∃ c, ErrorsSeen v.cpu c (v.fetchErrors i.length) ∧
        c = { v.cpu with cmeSeen := c.cmeSeen, umeSeen := c.umeSeen, f := c.f, memErr := c.memErr } ∧
        step s = exec i { v with cpu := c })

/-- R530, R533: a running CPU with a flag set exchanges before any of its instructions issues, wherever the flag came
from (an event, a request, an earlier instruction, or the package just loaded). That no further instruction issues after
the one that raised FPE or ORE is SKID = 0, on which R530 makes a proof depend (D25; log 28). -/
def Obligations.FlagExchangesBeforeIssue : Prop :=
  ∀ s u : State, s.deliver = .ok u → u.cpu.running = true → u.atBoundary.cpu.f.any = true →
    step s = u.atBoundary.exchangeSequence

/-- R88, R518: when the parcel at P lies above the instruction limit nothing issues and P stays; F.PRE is set, unless
the interrupt is inhibited (monitor mode without IMM), where the machine stops by name. R88, R89: when a parcel of the
instruction at P (the first, or a later one that its length calls for) lies exactly at the limit, the machine stops by
name (decision D9); a later parcel cannot lie above it, for parcels lie side by side. Of an instruction a parcel of which
is read with an uncorrectable memory error nothing is said. -/
def Obligations.ProgramRangeError : Prop :=
  ∀ s u v : State, s.deliver = .ok u → u.cpu.running = true → v = u.atBoundary → v.cpu.f.any = false →
    v.cpu.holding = none →
    (v.cpu.ila.toNat < v.fetchAddr v.cpu.p →
      (v.cpu.m.mm = false ∨ v.cpu.m.imm = true →
        step s = .next { v with cpu := { v.cpu with f := { v.cpu.f with pre := true } } }) ∧
      (v.cpu.m.mm = true → v.cpu.m.imm = false → step s = .refused .fetchInhibited)) ∧
    ∀ n, (n = 0 ∨ n < instrLength (v.parcelAt v.cpu.p) v.cpu.m.eam) →
      (∀ m, m < n → Fetches v (v.cpu.p + BitVec.ofNat 24 m)) → spoiled (v.fetchErrors n) = false →
      v.fetchAddr (v.cpu.p + BitVec.ofNat 24 n) = v.cpu.ila.toNat → step s = .refused .limitEquality

/-- R531, R540: no instruction but the two exits changes a mode bit other than BDM, FPS, IFP and IOR (so not MM, EAM,
PS, IUM, ICM, SEI, IMM), a base or limit register, or a flag other than FPE, ORE and, where a memory error accompanies one
of its reads, ME, in either mode. -/
def Obligations.OnlyExchangesChangeTheProgram : Prop :=
  ∀ (i : Instr) (s t : State), i ≠ .ex → i ≠ .err → exec i s = .next t →
    t.cpu.m = { s.cpu.m with bdm := t.cpu.m.bdm, fps := t.cpu.m.fps, ifp := t.cpu.m.ifp, ior := t.cpu.m.ior } ∧
    t.cpu.f = { s.cpu.f with fpe := t.cpu.f.fpe, ore := t.cpu.f.ore, me := t.cpu.f.me } ∧
    ((∀ n, s.errorsAt (.operand n) = []) → t.cpu.f.me = s.cpu.f.me) ∧
    t.cpu.iba = s.cpu.iba ∧ t.cpu.ila = s.cpu.ila ∧ t.cpu.dba = s.cpu.dba ∧ t.cpu.dla = s.cpu.dla

/-- R540: in user mode no instruction but the exits reaches XA, CLN, the programmable clock, an interrupt request, the
real-time clock, a channel or another CPU. -/
def Obligations.UserModeIsConfined : Prop :=
  ∀ (i : Instr) (s t : State), s.cpu.m.mm = false → i ≠ .ex → i ≠ .err → exec i s = .next t →
    t.cpu.xa = s.cpu.xa ∧ t.cpu.cln = s.cpu.cln ∧ t.cpu.ii = s.cpu.ii ∧ t.cpu.pc = s.cpu.pc ∧
    t.cpu.pciEnabled = s.cpu.pciEnabled ∧ t.cpu.pciRequest = s.cpu.pciRequest ∧
    t.cpu.ipiRequest = s.cpu.ipiRequest ∧ t.rtc = s.rtc ∧ t.channels = s.channels ∧ t.others = s.others ∧
    (∀ c, c ≠ s.cpu.cln → regGet t.clusters c = regGet s.clusters c)

/-- R86, R36: no instruction but the exits changes a word outside the data range [DBA, DLA), in either mode. -/
def Obligations.StoresStayInTheDataRange : Prop :=
  ∀ (i : Instr) (s t : State), i ≠ .ex → i ≠ .err → exec i s = .next t →
    ∀ x, (x / 8 < s.cpu.dba.toNat ∨ s.cpu.dla.toNat ≤ x / 8) →
      Memory.readByte t.mem x = Memory.readByte s.mem x

/-- R86, R36: what memory holds outside the data range [DBA, DLA) has no influence on an instruction that is no exit:
from two states that agree but for it, the same stop, or next states that agree but for memory, whose words inside
the range agree again. -/
def Obligations.LoadsSeeOnlyTheDataRange : Prop :=
  ∀ (i : Instr) (s : State) (m : Memory), i ≠ .ex → i ≠ .err →
    (∀ a, s.cpu.dba.toNat ≤ a → a < s.cpu.dla.toNat → Memory.readWord m a = Memory.readWord s.mem a) →
    match exec i s with
    | .next t => ∃ n, exec i { s with mem := m } = .next { t with mem := n } ∧
        ∀ a, s.cpu.dba.toNat ≤ a → a < s.cpu.dla.toNat → Memory.readWord n a = Memory.readWord t.mem a
    | .fault r => exec i { s with mem := m } = .fault r
    | .refused r => exec i { s with mem := m } = .refused r

/-! ## Operands (00_scope.md) and register entry (40_register_entry.md) -/

/-- R13, R14, R257, R262, R270, R279 to R282: the operand forms. In the h and j fields A0 reads as 0, in the k field as 1;
S0 reads as 0 in j and as 2^63 in k; any other register as it is, an A register modulo 2^AW. Program-relative addresses
are sums modulo 2^AW of the base and a displacement, an element number, a multiple of the stride, or an index element;
an X-mode displacement with bit 21 set is none (decision D12). -/
def Obligations.OperandsAndAddresses : Prop :=
  ∀ (s : State) (r h k : BitVec 3) (d : Addr) (jkm : BitVec 22) (count e : Nat),
    let n := 2 ^ addrWidth s.cpu.m.eam
    let a0 := (regGet s.cpu.a 0).toNat
    (s.ahVal 0).toNat = 0 ∧ (s.ajVal 0).toNat = 0 ∧ (s.akVal 0).toNat = 1 ∧
    (s.sjVal 0).toNat = 0 ∧ (s.skVal 0).toNat = 2 ^ 63 ∧
    (r ≠ 0 → (s.ahVal r).toNat = (regGet s.cpu.a r).toNat % n ∧
      s.ajVal r = s.ahVal r ∧ s.akVal r = s.ahVal r ∧ s.sjVal r = regGet s.cpu.s r ∧ s.skVal r = regGet s.cpu.s r) ∧
    (s.scalarAddr h d).toNat = ((s.ahVal h).toNat + d.toNat) % n ∧
    (jkm.toNat < 2 ^ 21 → disp22 jkm = some (BitVec.ofNat 32 jkm.toNat)) ∧ (2 ^ 21 ≤ jkm.toNat → disp22 jkm = none) ∧
    (s.blockAddrs count).length = count ∧ (s.strideAddrs d).length = s.cpu.vl.toNat ∧
    (s.indexAddrs k).length = s.cpu.vl.toNat ∧
    (∀ ea, (s.blockAddrs count)[e]? = some ea → ea.toNat = (a0 + e) % n) ∧
    (∀ ea, (s.strideAddrs d)[e]? = some ea → ea.toNat = (a0 + e * d.toNat) % n) ∧
    (∀ ea, (s.indexAddrs k)[e]? = some ea → ea.toNat = (a0 + (s.velem k (BitVec.ofNat 6 e)).toNat) % n)

/-- R160 to R165, R167 to R172: the constants entered into A and S registers, as they are (a 22-bit one zero-extended,
the spec's decision D12) or complemented at the width of the register (an A register's is AW), and the masks. R174, R310:
the five floating-point constants are positive normalized words with the values 0.75 * 2^48, 0.5 (the decision D50), 1, 2
and 4: a coefficient of 3/4 or 1/2 and the exponent 48, 0, 1, 2 and 3. -/
def Obligations.ConstantsEnterRegisters : Prop :=
  ∀ (s : State) (i : BitVec 3) (jkm : BitVec 22) (exp : BitVec 24) (nm : BitVec 32) (jk : BitVec 6),
    let enters := fun (x : Instr) (exponent quarters : Nat) =>
      GivesS (exec x s) s i 1
        (fun w => fpSign w = false ∧ fpExp w = 0o40000 + exponent ∧ fpCoef w * 4 = quarters * 2 ^ 48)
    (s.cpu.m.eam = false →
      GivesA (exec (.aImm24 i exp) s) s i 2 (fun a => a.toNat = exp.toNat) ∧
      GivesA (exec (.aImm22 i jkm) s) s i 2 (fun a => a.toNat = jkm.toNat) ∧
      GivesA (exec (.aImm22c i jkm) s) s i 2 (fun a => a.toNat = 2 ^ 24 - 1 - jkm.toNat) ∧
      GivesS (exec (.sImm22 i jkm) s) s i 2 (fun w => w.toNat = jkm.toNat) ∧
      GivesS (exec (.sImm22c i jkm) s) s i 2 (fun w => w.toNat = 2 ^ 64 - 1 - jkm.toNat)) ∧
    (s.cpu.m.eam = true →
      GivesA (exec (.aImm32 i nm) s) s i 3 (fun a => a.toNat = nm.toNat) ∧
      GivesA (exec (.aImm32c i nm) s) s i 3 (fun a => a.toNat = 2 ^ 32 - 1 - nm.toNat) ∧
      GivesS (exec (.sImm32 i nm) s) s i 3 (fun w => w.toNat = nm.toNat) ∧
      GivesS (exec (.sImm32c i nm) s) s i 3 (fun w => w.toNat = 2 ^ 64 - 1 - nm.toNat)) ∧
    GivesA (exec (.aImm6 i jk) s) s i 1 (fun a => a.toNat = jk.toNat) ∧
    GivesS (exec (.sMaskr i jk) s) s i 1 (fun w => ∀ b, w.getLsbD b = decide (b < 64 - jk.toNat)) ∧
    GivesS (exec (.sMaskl i jk) s) s i 1 (fun w => ∀ b, w.getLsbD b = decide (64 - jk.toNat ≤ b ∧ b < 64)) ∧
    enters (.sFc06 i) 48 3 ∧ enters (.sFc04 i) 0 2 ∧ enters (.sFc1 i) 1 2 ∧ enters (.sFc2 i) 2 2 ∧ enters (.sFc4 i) 3 2

/-! ## Interregister transfer (41_interregister_transfer.md) -/

/-- R200 to R203, R216, R220, R221, R231: transfers among A, B, S, T, VL and VM. -/
def Obligations.RegisterTransfers : Prop :=
  ∀ (s : State) (i j : BitVec 3) (jk : BitVec 6),
    GivesA (exec (.aFromS i j) s) s i 1
      (fun a => a.toNat = (s.sjVal j).toNat % 2 ^ addrWidth s.cpu.m.eam) ∧
    GivesA (exec (.aFromVl i) s) s i 1 (fun a => a.toNat = s.cpu.vl.toNat) ∧
    GivesA (exec (.aFromB i jk) s) s i 1
      (fun a => a.toNat = (regGet s.cpu.b jk).toNat % 2 ^ addrWidth s.cpu.m.eam) ∧
    GivesB (exec (.bFromA i jk) s) s jk 1
      (fun a => a.toNat = (regGet s.cpu.a i).toNat % 2 ^ addrWidth s.cpu.m.eam) ∧
    GivesS (exec (.sFromT i jk) s) s i 1 (fun w => w = regGet s.cpu.t jk) ∧
    GivesT (exec (.tFromS i jk) s) s jk 1 (fun w => w = regGet s.cpu.s i) ∧
    GivesS (exec (.sFromVm i) s) s i 1 (fun w => w = s.cpu.vm) ∧
    ∃ t, exec (.vmFromS j) s = .next t ∧ t.cpu.vm = s.sjVal j ∧ Moved s t 1 ∧
      t = { s with cpu := { s.cpu with vm := t.cpu.vm, p := t.cpu.p } } ∧ SameBytes s t

/-- R210 to R212: an A register enters an S register as an unsigned number, as a two's complement number of AW bits, or
as the unnormalized floating-point number with exponent 40060 octal whose value is that number (its bit pattern is
the spec's own decision D30, in the form R212 gives it; D30's own words differ for a negative number, log 41). -/
def Obligations.AddressEntersS : Prop :=
  ∀ (s : State) (i k : BitVec 3),
    let a := (s.akVal k).toNat
    let n := 2 ^ addrWidth s.cpu.m.eam
    let v : Int := if 2 * a < n then a else (a : Int) - n
    GivesS (exec (.sFromA i k) s) s i 1 (fun w => w.toNat = a) ∧
    GivesS (exec (.sFromASx i k) s) s i 1 (fun w => w.toInt = v) ∧
    GivesS (exec (.sFromAFlt i k) s) s i 1
      (fun w => fpSign w = decide (v < 0) ∧ fpExp w = 0o40060 ∧ fpCoef w = v.natAbs)

/-- R217, R49: the status word has each status bit, the processor number and the cluster number at its place under
any admissible layout, and 0 everywhere else. R213: the real-time clock is read as it stands (that no other count is
delivered is the model's choice, log 30). -/
def Obligations.StatusWordAndClock : Prop :=
  ∀ (s : State) (i : BitVec 3),
    let l := s.params.sr
    GivesS (exec (.sFromRtc i) s) s i 1 (fun w => w = s.rtc) ∧
    (s.params.sr.wf = true → GivesS (exec (.sFromSr i) s) s i 1 (fun w =>
      w.getLsbD l.clustered = decide (s.cpu.cln ≠ 0) ∧ w.getLsbD l.ume = s.cpu.umeSeen ∧
      w.getLsbD l.cme = s.cpu.cmeSeen ∧ w.getLsbD l.ps = s.cpu.m.ps ∧ w.getLsbD l.fps = s.cpu.m.fps ∧
      w.getLsbD l.ifp = s.cpu.m.ifp ∧ w.getLsbD l.ior = s.cpu.m.ior ∧ w.getLsbD l.bdm = s.cpu.m.bdm ∧
      w.extractLsb' l.pn 3 = s.cpu.pn ∧ w.extractLsb' l.cln 4 = s.cpu.cln ∧
      ∀ b, b ∉ l.bits → w.getLsbD b = false))

/-- R204, R206, R214, R215, R218, R219, R235: with a cluster, the shared registers of that cluster alone are read and
written; semaphore n stands in bit 63 - n of the S register (the spec's decision D21). With CLN = 0 every
shared-register instruction stops by name (D33). -/
def Obligations.SharedRegisters : Prop :=
  ∀ (s : State) (i j : BitVec 3) (jk : BitVec 6),
    let c := regGet s.clusters s.cpu.cln
    (s.cpu.cln = 0 → ∀ x ∈ [.aFromSb i j, .sbFromA i j, .sFromSm i, .sFromSt i j, .smFromS i, .stFromS i j, .smTs jk,
      .smClr jk, .smSet jk], exec x s = .refused .noCluster) ∧
    (s.cpu.cln ≠ 0 →
      GivesA (exec (.aFromSb i j) s) s i 1
        (fun a => a.toNat = (regGet c.sb j).toNat % 2 ^ addrWidth s.cpu.m.eam) ∧
      GivesS (exec (.sFromSt i j) s) s i 1 (fun w => w = regGet c.st j) ∧
      GivesS (exec (.sFromSm i) s) s i 1
        (fun w => ∀ n : BitVec 6, n.toNat < 32 → w.getLsbD (63 - n.toNat) = c.smIsSet n ∧ w.getLsbD n.toNat = false) ∧
      (∃ t d, exec (.sbFromA i j) s = .next t ∧ d = regGet t.clusters s.cpu.cln ∧
        (regGet d.sb j).toNat = (regGet s.cpu.a i).toNat % 2 ^ addrWidth s.cpu.m.eam ∧
        (∀ r, r ≠ j → regGet d.sb r = regGet c.sb r) ∧ d = { c with sb := d.sb } ∧
        (∀ x, x ≠ s.cpu.cln → regGet t.clusters x = regGet s.clusters x) ∧ Moved s t 1 ∧
        t = { s with cpu := { s.cpu with p := t.cpu.p }, clusters := t.clusters } ∧ SameBytes s t) ∧
      (∃ t d, exec (.stFromS i j) s = .next t ∧ d = regGet t.clusters s.cpu.cln ∧
        regGet d.st j = regGet s.cpu.s i ∧ (∀ r, r ≠ j → regGet d.st r = regGet c.st r) ∧ d = { c with st := d.st } ∧
        (∀ x, x ≠ s.cpu.cln → regGet t.clusters x = regGet s.clusters x) ∧ Moved s t 1 ∧
        t = { s with cpu := { s.cpu with p := t.cpu.p }, clusters := t.clusters } ∧ SameBytes s t) ∧
      (∃ t d, exec (.smFromS i) s = .next t ∧ d = regGet t.clusters s.cpu.cln ∧
        (∀ n : BitVec 6, n.toNat < 32 → d.smIsSet n = (regGet s.cpu.s i).getLsbD (63 - n.toNat)) ∧
        d = { c with sm := d.sm } ∧
        (∀ x, x ≠ s.cpu.cln → regGet t.clusters x = regGet s.clusters x) ∧ Moved s t 1 ∧
        t = { s with cpu := { s.cpu with p := t.cpu.p }, clusters := t.clusters } ∧ SameBytes s t))

/-- R240 to R242: a test and set of a clear semaphore sets it and goes on; of a set one it holds, with P and
everything else as it was; clear and set write one semaphore of the cluster and go on. -/
def Obligations.Semaphores : Prop :=
  ∀ (s : State) (jk : BitVec 6), s.cpu.cln ≠ 0 → jk.toNat < 32 →
    let c := regGet s.clusters s.cpu.cln
    let leaves := fun (o : Out) (b : Bool) (h : Option (BitVec 6)) =>
      ∃ t d, o = .next t ∧ d = regGet t.clusters s.cpu.cln ∧ d.smIsSet jk = b ∧
        (∀ n : BitVec 6, n.toNat < 32 → n ≠ jk → d.smIsSet n = c.smIsSet n) ∧ d = { c with sm := d.sm } ∧
        (∀ x, x ≠ s.cpu.cln → regGet t.clusters x = regGet s.clusters x) ∧ Moved s t 1 ∧
        t = { s with cpu := { s.cpu with p := t.cpu.p, holding := h }, clusters := t.clusters } ∧ SameBytes s t
    (c.smIsSet jk = false → leaves (exec (.smTs jk) s) true none) ∧
    (c.smIsSet jk = true →
      exec (.smTs jk) s = .next { s with cpu := { s.cpu with holding := some jk } }) ∧
    leaves (exec (.smClr jk) s) false s.cpu.holding ∧ leaves (exec (.smSet jk) s) true s.cpu.holding

/-- R222, R229, R232: the element that (Ak) selects is read or written, whatever VL; VL is loaded. Beyond the range of
the element number or of VL they stop by name (decisions D19, D52). R205: with VL = 0 every vector instruction stops by
name (decision D13, or, where the result register is one the instruction may not name, D15). -/
def Obligations.ElementsAndVectorLength : Prop :=
  ∀ (s : State) (i j k : BitVec 3),
    ((s.akVal k).toNat < 64 →
      GivesS (exec (.sFromVelem i j k) s) s i 1 (fun w => w = s.velem j (BitVec.ofNat 6 (s.akVal k).toNat)) ∧
      ∃ t, exec (.velemFromS i j k) s = .next t ∧ Moved s t 1 ∧
        (∀ e : BitVec 6, t.velem i e = if e.toNat = (s.akVal k).toNat then s.sjVal j else s.velem i e) ∧
        (∀ r, r ≠ i → regGet t.cpu.v r = regGet s.cpu.v r) ∧
        t = { s with cpu := { s.cpu with v := t.cpu.v, vused := true, p := t.cpu.p } } ∧ SameBytes s t) ∧
    (64 ≤ (s.akVal k).toNat →
      exec (.sFromVelem i j k) s = .refused .elementIndex ∧ exec (.velemFromS i j k) s = .refused .elementIndex) ∧
    ((s.akVal k).toNat ≤ 64 → ∃ t, exec (.vlFromA k) s = .next t ∧ t.cpu.vl.toNat = (s.akVal k).toNat ∧
      Moved s t 1 ∧ t = { s with cpu := { s.cpu with vl := t.cpu.vl, p := t.cpu.p } } ∧ SameBytes s t) ∧
    (64 < (s.akVal k).toNat → exec (.vlFromA k) s = .refused .vlTooLarge) ∧
    ∀ x : Instr, isVectorInstr x = true → s.cpu.vl = 0 →
      exec x s = .refused .vlZero ∨ exec x s = .refused .vectorOverlap

/-! ## Memory transfer (42_memory_transfer.md) -/

/-- R250 to R256, R322, R323, R472, R490, R491: the instructions that write one mode bit write that bit and nothing
else; PASS does nothing. CMR makes the record of earlier references empty: that record, and that completing all references
(R256) means emptying it, is the model's choice (DESIGN CHOICE, log 13). -/
def Obligations.ModeBitInstructions : Prop :=
  ∀ s : State,
    let gives := fun (o : Out) (m : Mode) (cbw sbo : Bool) (refs : List Ref) =>
      ∃ t, o = .next t ∧ Moved s t 1 ∧ SameBytes s t ∧
        t = { s with cpu := { s.cpu with p := t.cpu.p, m := m, cbw := cbw, sbo := sbo, refs := refs } }
    let c := s.cpu
    gives (exec .dbm s) { c.m with bdm := false } c.cbw c.sbo c.refs ∧
    gives (exec .ebm s) { c.m with bdm := true } c.cbw c.sbo c.refs ∧
    gives (exec .dcbw s) c.m false c.sbo c.refs ∧ gives (exec .ecbw s) c.m true c.sbo c.refs ∧
    gives (exec .dsbo s) c.m c.cbw false c.refs ∧ gives (exec .esbo s) c.m c.cbw true c.refs ∧
    gives (exec .efi s) { c.m with ifp := true } c.cbw c.sbo c.refs ∧
    gives (exec .dfi s) { c.m with ifp := false } c.cbw c.sbo c.refs ∧
    gives (exec .eri s) { c.m with ior := true } c.cbw c.sbo c.refs ∧
    gives (exec .dri s) { c.m with ior := false } c.cbw c.sbo c.refs ∧
    gives (exec .cmr s) c.m c.cbw c.sbo [] ∧ gives (exec .pass s) c.m c.cbw c.sbo c.refs

/-- R258, R259, R263, R264: a scalar read of a word that can be reached delivers the word, an A register its low AW
bits; only the record of references changes besides. R93, R519, R524: if memory errors accompany the read, the CPU notes
them, and nothing is said of the value after an uncorrectable one. -/
def Obligations.ScalarLoads : Prop :=
  ∀ (s : State) (h i : BitVec 3) (jkm : BitVec 22) (nm : BitVec 32),
    let l := s.errorsAt (.operand 0)
    let gets := fun (o : Out) (n : Nat) (ea : Addr) (isA : Bool) =>
      ∃ t, o = .next t ∧ Moved s t n ∧ SameBytes s t ∧ ErrorsSeen s.cpu t.cpu l ∧
        t = { s with cpu := { s.cpu with
          a := t.cpu.a, s := t.cpu.s, p := t.cpu.p, refs := t.cpu.refs, cmeSeen := t.cpu.cmeSeen
          umeSeen := t.cpu.umeSeen, f := t.cpu.f, memErr := t.cpu.memErr }, draws := t.draws } ∧
        (∀ r, (isA = false ∨ r ≠ i) → regGet t.cpu.a r = regGet s.cpu.a r) ∧
        (∀ r, (isA = true ∨ r ≠ i) → regGet t.cpu.s r = regGet s.cpu.s r) ∧
        (spoiled l = false → t.draws = s.draws ∧
          (isA = true → (regGet t.cpu.a i).toNat =
            (Memory.readWord s.mem (s.wordOf ea)).toNat % 2 ^ addrWidth s.cpu.m.eam) ∧
          (isA = false → regGet t.cpu.s i = Memory.readWord s.mem (s.wordOf ea)))
    (∀ d, disp22 jkm = some d → Reaches s false false (s.wordOf (s.scalarAddr h d)) →
      gets (exec (.ldAX h i jkm) s) 2 (s.scalarAddr h d) true ∧
      gets (exec (.ldSX h i jkm) s) 2 (s.scalarAddr h d) false) ∧
    (Reaches s false false (s.wordOf (s.scalarAddr h nm)) →
      gets (exec (.ldAY h i nm) s) 3 (s.scalarAddr h nm) true ∧
      gets (exec (.ldSY h i nm) s) 3 (s.scalarAddr h nm) false)

/-- R260, R261, R265, R266: a scalar write of a word that can be reached stores (Si), or (Ai) modulo 2^AW above zeros,
in that word and in no other; only the records of references and writes change besides. -/
def Obligations.ScalarStores : Prop :=
  ∀ (s : State) (h i : BitVec 3) (jkm : BitVec 22) (nm : BitVec 32),
    let puts := fun (o : Out) (n : Nat) (ea : Addr) (v : Nat) =>
      ∃ t, o = .next t ∧ Moved s t n ∧ (Memory.readWord t.mem (s.wordOf ea)).toNat = v ∧
        SameBytesOutside s t (fun w => w = s.wordOf ea) ∧
        t = { s with cpu := { s.cpu with p := t.cpu.p, refs := t.cpu.refs }
                     mem := t.mem, writeLog := t.writeLog, writeClock := t.writeClock }
    let a := (regGet s.cpu.a i).toNat % 2 ^ addrWidth s.cpu.m.eam
    (∀ d, disp22 jkm = some d → Reaches s false true (s.wordOf (s.scalarAddr h d)) →
      puts (exec (.stAX h i jkm) s) 2 (s.scalarAddr h d) a ∧
      puts (exec (.stSX h i jkm) s) 2 (s.scalarAddr h d) (regGet s.cpu.s i).toNat) ∧
    (Reaches s false true (s.wordOf (s.scalarAddr h nm)) →
      puts (exec (.stAY h i nm) s) 3 (s.scalarAddr h nm) a ∧
      puts (exec (.stSY h i nm) s) 3 (s.scalarAddr h nm) (regGet s.cpu.s i).toNat)

/-- R86, R94, R517: a scalar reference whose address exceeds DLA is aborted: the instruction completes, memory is
unchanged, F.ORE is set if IOR is and the gate is open; of a read's destination nothing is said. -/
def Obligations.AbortedScalarReferences : Prop :=
  ∀ (s : State) (h i : BitVec 3) (jkm : BitVec 22) (nm d : BitVec 32),
    let aborts := fun (o : Out) (n : Nat) (isA isS : Bool) =>
      ∃ t, o = .next t ∧ Moved s t n ∧ SameBytes s t ∧ ReportsOperandRange s t ∧
        t = { s with cpu := { s.cpu with a := t.cpu.a, s := t.cpu.s, p := t.cpu.p, f := t.cpu.f }, draws := t.draws } ∧
        (∀ r, (isA = false ∨ r ≠ i) → regGet t.cpu.a r = regGet s.cpu.a r) ∧
        (∀ r, (isS = false ∨ r ≠ i) → regGet t.cpu.s r = regGet s.cpu.s r)
    (disp22 jkm = some d → s.cpu.dla.toNat < s.wordOf (s.scalarAddr h d) →
      aborts (exec (.ldAX h i jkm) s) 2 true false ∧ aborts (exec (.ldSX h i jkm) s) 2 false true ∧
      aborts (exec (.stAX h i jkm) s) 2 false false ∧ aborts (exec (.stSX h i jkm) s) 2 false false) ∧
    (s.cpu.dla.toNat < s.wordOf (s.scalarAddr h nm) →
      aborts (exec (.ldAY h i nm) s) 3 true false ∧ aborts (exec (.ldSY h i nm) s) 3 false true ∧
      aborts (exec (.stAY h i nm) s) 3 false false ∧ aborts (exec (.stSY h i nm) s) 3 false false)

/-- R86, R91, R262, R270: what stops by name: a scalar reference at exactly the limit (decision D9) or beyond memory
(D10), an X-mode displacement with bit 21 set (D12), a block count beyond the register file (D20). -/
def Obligations.MemoryInstructionStops : Prop :=
  ∀ (s : State) (h i : BitVec 3) (jkm : BitVec 22) (nm : BitVec 32) (jk : BitVec 6) (x : Instr),
    (x ∈ [.ldAY h i nm, .ldSY h i nm, .stAY h i nm, .stSY h i nm] →
      let a := s.wordOf (s.scalarAddr h nm)
      (a = s.cpu.dla.toNat → exec x s = .refused .limitEquality) ∧
      (a < s.cpu.dla.toNat → s.params.memWords ≤ a → exec x s = .fault .beyondMemory)) ∧
    (x ∈ [.ldAX h i jkm, .ldSX h i jkm, .stAX h i jkm, .stSX h i jkm] →
      let a := s.wordOf (s.scalarAddr h (BitVec.ofNat 32 jkm.toNat))
      (2 ^ 21 ≤ jkm.toNat → exec x s = .refused .displacementSign) ∧
      (jkm.toNat < 2 ^ 21 → a = s.cpu.dla.toNat → exec x s = .refused .limitEquality) ∧
      (jkm.toNat < 2 ^ 21 → a < s.cpu.dla.toNat → s.params.memWords ≤ a → exec x s = .fault .beyondMemory)) ∧
    (x ∈ [.ldBBlk i jk, .stBBlk i jk, .ldTBlk i jk, .stTBlk i jk] →
      64 < jk.toNat + (s.readA i).toNat → exec x s = .refused .blockCount)

/-- R270, R271, R273: a block read whose words can all be reached fills registers jk, jk + 1, ... of the file with them
(a B register with the low AW bits) and leaves the other registers. R93, R519, R524: the CPU notes the memory errors that
accompany the reads; nothing is said of a register whose own read has an uncorrectable one. -/
def Obligations.BlockLoads : Prop :=
  ∀ (s : State) (i : BitVec 3) (jk : BitVec 6),
    let n := (s.readA i).toNat
    let eas := s.blockAddrs n
    let word := fun (r : BitVec 6) =>
      Memory.readWord s.mem (s.wordOf (eas.getD (r.toNat - jk.toNat) 0))
    let loaded := fun (r : BitVec 6) => jk.toNat ≤ r.toNat ∧ r.toNat < jk.toNat + n
    let clean := fun (r : BitVec 6) => spoiled (s.errorsAt (.operand (r.toNat - jk.toNat))) = false
    let reads := fun (o : Out) (q : State → BitVec 6 → Prop) (c : State → Cpu) =>
      ∃ t, o = .next t ∧ Moved s t 1 ∧ SameBytes s t ∧ ErrorsSeen s.cpu t.cpu (s.operandErrors n) ∧
        (spoiled (s.operandErrors n) = false → t.draws = s.draws) ∧ (∀ r, q t r) ∧
        t = { s with cpu := { c t with
          p := t.cpu.p, refs := t.cpu.refs, cmeSeen := t.cpu.cmeSeen, umeSeen := t.cpu.umeSeen, f := t.cpu.f
          memErr := t.cpu.memErr }, draws := t.draws }
    jk.toNat + n ≤ 64 → ReachesAll s false eas →
    reads (exec (.ldBBlk i jk) s)
      (fun t r => (loaded r → clean r → (regGet t.cpu.b r).toNat = (word r).toNat % 2 ^ addrWidth s.cpu.m.eam) ∧
        (¬ loaded r → regGet t.cpu.b r = regGet s.cpu.b r))
      (fun t => { s.cpu with b := t.cpu.b }) ∧
    reads (exec (.ldTBlk i jk) s)
      (fun t r => (loaded r → clean r → regGet t.cpu.t r = word r) ∧
        (¬ loaded r → regGet t.cpu.t r = regGet s.cpu.t r))
      (fun t => { s.cpu with t := t.cpu.t })

/-- R270, R272, R274: a block write whose words can all be reached stores registers jk, jk + 1, ... of the file, in
that order, in the words it names and in no other. -/
def Obligations.BlockStores : Prop :=
  ∀ (s : State) (i : BitVec 3) (jk : BitVec 6),
    let n := (s.readA i).toNat
    jk.toNat + n ≤ 64 → ReachesAll s true (s.blockAddrs n) →
    StoresInOrder (exec (.stBBlk i jk) s) s s.cpu.vused (s.blockAddrs n)
      ((List.range n).map fun e =>
        BitVec.ofNat 64 ((regGet s.cpu.b (BitVec.ofNat 6 (jk.toNat + e))).toNat % 2 ^ addrWidth s.cpu.m.eam)) ∧
    StoresInOrder (exec (.stTBlk i jk) s) s s.cpu.vused (s.blockAddrs n)
      ((List.range n).map fun e => regGet s.cpu.t (BitVec.ofNat 6 (jk.toNat + e)))

/-- R278 to R280: a vector read or gather whose words can all be reached fills the elements of Vi below VL. R93, R519,
R524: the CPU notes the memory errors that accompany the reads; nothing is said of an element whose own read has an
uncorrectable one. -/
def Obligations.VectorLoads : Prop :=
  ∀ (s : State) (i k : BitVec 3), s.cpu.vl ≠ 0 → s.cpu.vl.toNat ≤ 64 →
    let l := s.operandErrors s.cpu.vl.toNat
    let fills := fun (o : Out) (eas : List Addr) =>
      ∃ t, o = .next t ∧ Moved s t 1 ∧ SameBytes s t ∧ ErrorsSeen s.cpu t.cpu l ∧
        VectorIs s t i (fun e w => spoiled (s.errorsAt (.operand e.toNat)) = false →
          w = Memory.readWord s.mem (s.wordOf (eas.getD e.toNat 0))) ∧
        (spoiled l = false → t.draws = s.draws) ∧
        t = { s with cpu := { s.cpu with
          v := t.cpu.v, vused := true, p := t.cpu.p, refs := t.cpu.refs, cmeSeen := t.cpu.cmeSeen
          umeSeen := t.cpu.umeSeen, f := t.cpu.f, memErr := t.cpu.memErr }, draws := t.draws }
    (ReachesAll s false (s.strideAddrs (s.akVal k)) →
      fills (exec (.ldV i k) s) (s.strideAddrs (s.akVal k))) ∧
    (i ≠ k → ReachesAll s false (s.indexAddrs k) → fills (exec (.ldVGather i k) s) (s.indexAddrs k)) ∧
    (i = k → exec (.ldVGather i k) s = .refused .vectorOverlap)

/-- R278, R281, R282: a vector write stores the elements of Vj below VL in rising order; a scatter leaves in each word it
names the value of an element that names it (of the only one, if there is one), and no other word is changed. -/
def Obligations.VectorStores : Prop :=
  ∀ (s : State) (j k : BitVec 3), s.cpu.vl ≠ 0 → s.cpu.vl.toNat ≤ 64 →
    let vals := (List.range s.cpu.vl.toNat).map fun e => s.velem j (BitVec.ofNat 6 e)
    (ReachesAll s true (s.strideAddrs (s.akVal k)) →
      StoresInOrder (exec (.stV j k) s) s true (s.strideAddrs (s.akVal k)) vals) ∧
    (ReachesAll s true (s.indexAddrs k) →
      ∃ t, exec (.stVScatter j k) s = .next t ∧ Moved s t 1 ∧ SameBytesOutside s t (Names s (s.indexAddrs k)) ∧
        (∀ ea ∈ s.indexAddrs k, ∃ e : Nat, ∃ ea', (s.indexAddrs k)[e]? = some ea' ∧ s.wordOf ea' = s.wordOf ea ∧
          vals[e]? = some (Memory.readWord t.mem (s.wordOf ea))) ∧
        t = { s with cpu := { s.cpu with p := t.cpu.p, refs := t.cpu.refs, vused := true }
                     mem := t.mem, writeLog := t.writeLog, writeClock := t.writeClock, draws := t.draws })

/-- R94, R270, R278 (decision D46): a block or vector write some of whose elements exceed the limit completes; the
aborted elements store nothing, each word another element names holds its old value or the value of an element that
names it, and no other word is changed; F.ORE is set if IOR is and the gate is open. -/
def Obligations.PartlyAbortedStores : Prop :=
  ∀ (s : State) (i j k : BitVec 3) (jk : BitVec 6),
    let n := (s.readA i).toNat
    let partly := fun (o : Out) (vused : Bool) (eas : List Addr) (vals : List Word) =>
      ∃ t, o = .next t ∧ Moved s t 1 ∧ ReportsOperandRange s t ∧
        SameBytesOutside s t (fun w => Names s eas w ∧ w < s.cpu.dla.toNat) ∧
        (∀ w, Names s eas w → w < s.cpu.dla.toNat →
          Memory.readWord t.mem w = Memory.readWord s.mem w ∨
          ∃ e : Nat, ∃ ea, eas[e]? = some ea ∧ s.wordOf ea = w ∧ vals[e]? = some (Memory.readWord t.mem w)) ∧
        t = { s with cpu := { s.cpu with p := t.cpu.p, refs := t.cpu.refs, vused := vused, f := t.cpu.f }
                     mem := t.mem, writeLog := t.writeLog, writeClock := t.writeClock, draws := t.draws }
    (jk.toNat + n ≤ 64 → ReachesSome s true (s.blockAddrs n) →
      partly (exec (.stBBlk i jk) s) s.cpu.vused (s.blockAddrs n)
        ((List.range n).map fun e =>
          BitVec.ofNat 64 ((regGet s.cpu.b (BitVec.ofNat 6 (jk.toNat + e))).toNat % 2 ^ addrWidth s.cpu.m.eam)) ∧
      partly (exec (.stTBlk i jk) s) s.cpu.vused (s.blockAddrs n)
        ((List.range n).map fun e => regGet s.cpu.t (BitVec.ofNat 6 (jk.toNat + e)))) ∧
    (s.cpu.vl ≠ 0 → s.cpu.vl.toNat ≤ 64 →
      let vals := (List.range s.cpu.vl.toNat).map fun e => s.velem j (BitVec.ofNat 6 e)
      (ReachesSome s true (s.strideAddrs (s.akVal k)) →
        partly (exec (.stV j k) s) true (s.strideAddrs (s.akVal k)) vals) ∧
      (ReachesSome s true (s.indexAddrs k) → partly (exec (.stVScatter j k) s) true (s.indexAddrs k) vals))

/-- R94, R270, R278 (decision D46): a block or vector read some of whose elements exceed the limit completes with
memory unchanged and F.ORE set if IOR is and the gate is open; a destination of an element within the limit holds its
old value or the word, registers and elements that are no destination are kept. (With no memory error on the reads.) -/
def Obligations.PartlyAbortedLoads : Prop :=
  ∀ (s : State) (i k : BitVec 3) (jk : BitVec 6), (∀ n, s.errorsAt (.operand n) = []) →
    let n := (s.readA i).toNat
    let inRange := fun (ea : Addr) => s.wordOf ea < s.cpu.dla.toNat
    let word := fun (ea : Addr) => Memory.readWord s.mem (s.wordOf ea)
    (jk.toNat + n ≤ 64 → ReachesSome s false (s.blockAddrs n) →
      let ea := fun (r : BitVec 6) => (s.blockAddrs n).getD (r.toNat - jk.toNat) 0
      let dest := fun (r : BitVec 6) => jk.toNat ≤ r.toNat ∧ r.toNat < jk.toNat + n
      (∃ t, exec (.ldBBlk i jk) s = .next t ∧ Moved s t 1 ∧ SameBytes s t ∧ ReportsOperandRange s t ∧
        (∀ r, ¬ dest r → regGet t.cpu.b r = regGet s.cpu.b r) ∧
        (∀ r, dest r → inRange (ea r) → regGet t.cpu.b r = regGet s.cpu.b r ∨
          (regGet t.cpu.b r).toNat = (word (ea r)).toNat % 2 ^ addrWidth s.cpu.m.eam) ∧
        t = { s with cpu := { s.cpu with b := t.cpu.b, p := t.cpu.p, refs := t.cpu.refs, f := t.cpu.f }
                     draws := t.draws }) ∧
      (∃ t, exec (.ldTBlk i jk) s = .next t ∧ Moved s t 1 ∧ SameBytes s t ∧ ReportsOperandRange s t ∧
        (∀ r, ¬ dest r → regGet t.cpu.t r = regGet s.cpu.t r) ∧
        (∀ r, dest r → inRange (ea r) → regGet t.cpu.t r = regGet s.cpu.t r ∨ regGet t.cpu.t r = word (ea r)) ∧
        t = { s with cpu := { s.cpu with t := t.cpu.t, p := t.cpu.p, refs := t.cpu.refs, f := t.cpu.f }
                     draws := t.draws })) ∧
    (s.cpu.vl ≠ 0 → s.cpu.vl.toNat ≤ 64 →
      let fills := fun (o : Out) (eas : List Addr) =>
        ∃ t, o = .next t ∧ Moved s t 1 ∧ SameBytes s t ∧ ReportsOperandRange s t ∧
          VectorIs s t i (fun e w => inRange (eas.getD e.toNat 0) → w = s.velem i e ∨ w = word (eas.getD e.toNat 0)) ∧
          t = { s with cpu := { s.cpu with v := t.cpu.v, vused := true, p := t.cpu.p, refs := t.cpu.refs, f := t.cpu.f }
                       draws := t.draws }
      (ReachesSome s false (s.strideAddrs (s.akVal k)) → fills (exec (.ldV i k) s) (s.strideAddrs (s.akVal k))) ∧
      (i ≠ k → ReachesSome s false (s.indexAddrs k) → fills (exec (.ldVGather i k) s) (s.indexAddrs k)))

/-- R98, R99: with BDM, CBW and SBO all 0 no two references are ever unordered, so no race stops an instruction; after CMR
none with an earlier reference is, whatever the bits. That the bits at the later of two references decide, also when
the earlier was made under a bit that has been cleared since, and that the window of a reference ends at CMR, are the
model's choice (log 13). -/
def Obligations.ProgramOrderWithoutOverlap : Prop :=
  ∀ s : State,
    (s.cpu.m.bdm = false → s.cpu.cbw = false → s.cpu.sbo = false → ∀ i, exec i s ≠ .fault .overlapRace) ∧
    ∀ t, exec .cmr s = .next t → ∀ i, exec i t ≠ .fault .overlapRace

/-! ## Integer arithmetic (43_integer_arithmetic.md) -/

/-- R291 to R295: sums, differences and products of address operands modulo 2^AW, sums and differences of scalar operands
modulo 2^64; no flag records an overflow. -/
def Obligations.ScalarIntegerArithmetic : Prop :=
  ∀ (s : State) (i j k : BitVec 3),
    let n := 2 ^ addrWidth s.cpu.m.eam
    let a := (s.ajVal j).toNat
    let b := (s.akVal k).toNat
    let v := (s.sjVal j).toNat
    let w := (s.skVal k).toNat
    GivesA (exec (.aAdd i j k) s) s i 1 (fun r => r.toNat = (a + b) % n) ∧
    GivesA (exec (.aSub i j k) s) s i 1 (fun r => r.toNat = (a + n - b) % n) ∧
    GivesA (exec (.aMul i j k) s) s i 1 (fun r => r.toNat = a * b % n) ∧
    GivesS (exec (.sAdd i j k) s) s i 1 (fun r => r.toNat = (v + w) % 2 ^ 64) ∧
    GivesS (exec (.sSub i j k) s) s i 1 (fun r => r.toNat = (v + 2 ^ 64 - w) % 2 ^ 64)

/-- R205, R296 to R299: sums and differences of the elements below VL modulo 2^64; the elements at and above VL are kept
(the spec's decision D14). -/
def Obligations.VectorIntegerArithmetic : Prop :=
  ∀ (s : State) (i j k : BitVec 3), s.cpu.vl ≠ 0 →
    let v := (s.sjVal j).toNat
    let x := fun e => (s.velem j e).toNat
    let y := fun e => (s.velem k e).toNat
    GivesV (exec (.vAddSv i j k) s) s i (fun e r => r.toNat = (v + y e) % 2 ^ 64) ∧
    GivesV (exec (.vAddVv i j k) s) s i (fun e r => r.toNat = (x e + y e) % 2 ^ 64) ∧
    GivesV (exec (.vSubSv i j k) s) s i (fun e r => r.toNat = (v + 2 ^ 64 - y e) % 2 ^ 64) ∧
    GivesV (exec (.vSubVv i j k) s) s i (fun e r => r.toNat = (x e + 2 ^ 64 - y e) % 2 ^ 64)

/-! ## Floating point (44_floating_point.md) -/

/-- R205, R313, R319, R320, R324 to R329: a scalar sum or difference (the second operand's sign inverted), and that of
each element below VL, is a range-checked raw sum within R313's constraints, and the zero word where the operands differ
in the sign alone (R325: the difference of equal operands); an overflow sets FPS, and F.FPE if it is
enabled (those of a vector's elements are reported together); the results are written anyway. -/
def Obligations.FloatSums : Prop :=
  ∀ (s : State) (i j k : BitVec 3),
    let neg := fun (w : Word) => w ^^^ BitVec.ofNat 64 (2 ^ 63)
    let sum := fun (a b w : Word) (err : Bool) => ∃ r, SumOk a b r ∧ RangeChecked r w err
    GivesSFp (exec (.sFadd i j k) s) s i (sum (s.sjVal j) (s.skVal k)) ∧
    GivesSFp (exec (.sFsub i j k) s) s i (sum (s.sjVal j) (neg (s.skVal k))) ∧
    (s.cpu.vl ≠ 0 →
      GivesVFp (exec (.vFaddSv i j k) s) s i (fun e => sum (s.sjVal j) (s.velem k e)) ∧
      GivesVFp (exec (.vFaddVv i j k) s) s i (fun e => sum (s.velem j e) (s.velem k e)) ∧
      GivesVFp (exec (.vFsubSv i j k) s) s i (fun e => sum (s.sjVal j) (neg (s.velem k e))) ∧
      GivesVFp (exec (.vFsubVv i j k) s) s i (fun e => sum (s.velem j e) (neg (s.velem k e))))

/-- R205, R314 to R316, R319, R320, R330 to R339: a scalar product, and that of each element below VL, is a range-checked
raw product within the constraints of its rule; of two zero exponents the unrounded product is the integer product,
and no product is out of range. R310, R311: no product is normalized unless both operands are; a negative zero comes from
an operand that is one or from the sign rule (the model's choice between R310 and R314 (1), log 37). The model's readings,
log 17: a rounded product's zero coefficient and the two values of its exponent, which R315 does not take from R314 (6);
the bound of one unit that stands for R314 (5); R316 for unnormalized operands and for 29 bits that are all ones. An inexact integer product is within one of the upper
48 bits by R335, where 93_implementation_defined.md U5 would allow any value (the model's choice, log 42). R314 (3), R315, R316:
a product does not depend on the order of its operands; in the scalar forms for registers other than S0, whose special
values differ in j and k. -/
def Obligations.FloatProducts : Prop :=
  ∀ (s : State) (i j k : BitVec 3),
    let full := ProductWord IntegerProduct ProductOk
    let rounded := ProductWord InstanceProduct RoundedOk
    let half := ProductWord HalfInstanceProduct HalfOk
    GivesSFp (exec (.sFmul i j k) s) s i (full (s.sjVal j) (s.skVal k)) ∧
    GivesSFp (exec (.sFmulR i j k) s) s i (rounded (s.sjVal j) (s.skVal k)) ∧
    GivesSFp (exec (.sFmulH i j k) s) s i (half (s.sjVal j) (s.skVal k)) ∧
    (s.cpu.vl ≠ 0 →
      GivesVFp (exec (.vFmulSv i j k) s) s i (fun e => full (s.sjVal j) (s.velem k e)) ∧
      GivesVFp (exec (.vFmulVv i j k) s) s i (fun e => full (s.velem j e) (s.velem k e)) ∧
      GivesVFp (exec (.vFmulRSv i j k) s) s i (fun e => rounded (s.sjVal j) (s.velem k e)) ∧
      GivesVFp (exec (.vFmulRVv i j k) s) s i (fun e => rounded (s.velem j e) (s.velem k e)) ∧
      GivesVFp (exec (.vFmulHSv i j k) s) s i (fun e => half (s.sjVal j) (s.velem k e)) ∧
      GivesVFp (exec (.vFmulHVv i j k) s) s i (fun e => half (s.velem j e) (s.velem k e))) ∧
    (j ≠ 0 → k ≠ 0 →
      exec (.sFmul i j k) s = exec (.sFmul i k j) s ∧ exec (.sFmulR i j k) s = exec (.sFmulR i k j) s ∧
      exec (.sFmulH i j k) s = exec (.sFmulH i k j) s) ∧
    exec (.vFmulVv i j k) s = exec (.vFmulVv i k j) s ∧ exec (.vFmulRVv i j k) s = exec (.vFmulRVv i k j) s ∧
    exec (.vFmulHVv i j k) s = exec (.vFmulHVv i k j) s

/-- R317, R318, R319 to R321, R340 to R342, R345, R347: the reciprocal iteration is some raw result, range-checked, and
for a number and its reciprocal approximation within the bound of `IterOk` of 2 minus their product (how close, and for which
operands, is the model's reading of R317, log 16); the reciprocal approximation is within the bound of R318 or the error of R321. -/
def Obligations.ReciprocalInstructions : Prop :=
  ∀ (s : State) (i j k : BitVec 3),
    let iter := fun (a b w : Word) (err : Bool) => (∃ r, RangeChecked r w err) ∧ IterOk a b w err
    GivesSFp (exec (.sFiter i j k) s) s i (iter (s.sjVal j) (s.skVal k)) ∧
    GivesSFp (exec (.sFrecip i j) s) s i (RecipOk (s.sjVal j)) ∧
    (s.cpu.vl ≠ 0 →
      GivesVFp (exec (.vFiterSv i j k) s) s i (fun e => iter (s.sjVal j) (s.velem k e)) ∧
      GivesVFp (exec (.vFiterVv i j k) s) s i (fun e => iter (s.velem j e) (s.velem k e)) ∧
      GivesVFp (exec (.vFrecip i j) s) s i (fun e => RecipOk (s.velem j e)))

/-- R350: of a normalized (S2) whose reciprocal is in range, 070320, 067432, 064543 leave in S5 a normalized number of its
sign that is 1 / (S2) with a relative error below 2^-45 (the model's reading of "to 48-bit accuracy", log 16), and raise
nothing; unless the 48 bits kept of the last product are all ones, a case R314 leaves open. With e the sum of the unbiased
exponents of S2 and S5: |c * d * 2^e - 2^96| < 2^51 for their coefficients c and d. -/
def Obligations.DivideSequenceReachesTheReciprocal : Prop :=
  ∀ s : State,
    let a := regGet s.cpu.s 2
    2 ^ 47 ≤ fpCoef a → 0o20003 ≤ fpExp a → fpExp a ≤ 0o57777 →
    ∃ s3 s4 s5 : State, exec (.sFrecip 3 2) s = .next s3 ∧ exec (.sFiter 4 3 2) s3 = .next s4 ∧
      exec (.sFmul 5 4 3) s4 = .next s5 ∧ Moved s s5 3 ∧
      let p := fpCoef (regGet s4.cpu.s 4) * fpCoef (regGet s4.cpu.s 3)
      let z := regGet s5.cpu.s 5
      (if p < 2 ^ 95 then p / 2 ^ 47 else p / 2 ^ 48) = 2 ^ 48 - 1 ∨
        (s5.cpu.m = s.cpu.m ∧ s5.cpu.f = s.cpu.f ∧ fpSign z = fpSign a ∧ 2 ^ 47 ≤ fpCoef z ∧
        ∃ e : Nat, fpExp z + fpExp a = 0o100000 + e ∧
          2 ^ 96 < fpCoef z * fpCoef a * 2 ^ e + 2 ^ 51 ∧ fpCoef z * fpCoef a * 2 ^ e < 2 ^ 96 + 2 ^ 51)

/-- R346: 166 in Y-mode completes for any operands and raises nothing; an element that meets the accuracy precondition
is the low 32 bits (decision D38) of the product of the two 32-bit operands; of any other element nothing is said. -/
def Obligations.IntegerProductsOf166 : Prop :=
  ∀ (s : State) (i j k : BitVec 3), s.cpu.vl ≠ 0 →
    let a := (s.sjVal j).toNat
    ∃ t, exec (.vImul32 i j k) s = .next t ∧ Moved s t 1 ∧ SameBytes s t ∧
      VectorIs s t i (fun e w =>
        let b := (s.velem k e).toNat
        a < 2 ^ 63 → a % 2 ^ 31 = 0 → b < 2 ^ 48 → b % 2 ^ 16 = 0 →
          w.toNat = (a / 2 ^ 31) * (b / 2 ^ 16) % 2 ^ 32) ∧
      t = { s with cpu := { s.cpu with v := t.cpu.v, vused := true, p := t.cpu.p }, draws := t.draws }

/-! ## Logical, shift and bit count (45_logical.md, 46_shift.md, 47_bit_count.md) -/

/-- R361 to R370, R401 to R404: the scalar logical instructions bit by bit (the merge takes (Sj) where the mask (Sk) is
1 and the old (Si) where it is 0), and the single shifts as multiplication and division by powers of two: 052 and 053 write
S0, and the right shifts move 64 - jk places. -/
def Obligations.ScalarLogicAndShifts : Prop :=
  ∀ (s : State) (i j k : BitVec 3) (jk : BitVec 6),
    let x := s.sjVal j
    let y := s.skVal k
    let v := (regGet s.cpu.s i).toNat
    let is := fun (o : Out) (f : Bool → Bool → Bool) =>
      GivesS o s i 1 (fun w => ∀ b, b < 64 → w.getLsbD b = f (x.getLsbD b) (y.getLsbD b))
    is (exec (.sAnd i j k) s) (fun p q => p && q) ∧ is (exec (.sAndn i j k) s) (fun p q => p && !q) ∧
    is (exec (.sXor i j k) s) (fun p q => p != q) ∧ is (exec (.sXnor i j k) s) (fun p q => p == q) ∧
    is (exec (.sOr i j k) s) (fun p q => p || q) ∧
    GivesS (exec (.sMerge i j k) s) s i 1 (fun w => ∀ b, b < 64 →
      w.getLsbD b = if y.getLsbD b then x.getLsbD b else (regGet s.cpu.s i).getLsbD b) ∧
    GivesS (exec (.s0Shl i jk) s) s 0 1 (fun w => w.toNat = v * 2 ^ jk.toNat % 2 ^ 64) ∧
    GivesS (exec (.s0Shr i jk) s) s 0 1 (fun w => w.toNat = v / 2 ^ (64 - jk.toNat)) ∧
    GivesS (exec (.sShl i jk) s) s i 1 (fun w => w.toNat = v * 2 ^ jk.toNat % 2 ^ 64) ∧
    GivesS (exec (.sShr i jk) s) s i 1 (fun w => w.toNat = v / 2 ^ (64 - jk.toNat))

/-- R205, R378 to R385: the vector logical instructions bit by bit; a merge takes the first operand's element where VM's
bit for it (bit 63 - e) is 1, the second's where it is 0; the elements at and above VL are kept (the spec's decision D14). -/
def Obligations.VectorLogic : Prop :=
  ∀ (s : State) (i j k : BitVec 3), s.cpu.vl ≠ 0 →
    let x := s.sjVal j
    let elems := fun (o : Out) (first : BitVec 6 → Word) (f : Bool → Bool → Bool) =>
      GivesV o s i (fun e w => ∀ b, b < 64 → w.getLsbD b = f ((first e).getLsbD b) ((s.velem k e).getLsbD b))
    let merges := fun (o : Out) (first : BitVec 6 → Word) =>
      GivesV o s i (fun e w => (s.cpu.vm.getLsbD (63 - e.toNat) = true → w = first e) ∧
        (s.cpu.vm.getLsbD (63 - e.toNat) = false → w = s.velem k e))
    elems (exec (.vAndSv i j k) s) (fun _ => x) (fun p q => p && q) ∧
    elems (exec (.vAndVv i j k) s) (s.velem j) (fun p q => p && q) ∧
    elems (exec (.vOrSv i j k) s) (fun _ => x) (fun p q => p || q) ∧
    elems (exec (.vOrVv i j k) s) (s.velem j) (fun p q => p || q) ∧
    elems (exec (.vXorSv i j k) s) (fun _ => x) (fun p q => p != q) ∧
    elems (exec (.vXorVv i j k) s) (s.velem j) (fun p q => p != q) ∧
    merges (exec (.vMergeSv i j k) s) (fun _ => x) ∧ merges (exec (.vMergeVv i j k) s) (s.velem j)

/-- R205, R390 to R398: the mask tests: for each element below VL its VM bit says whether it is zero, nonzero,
nonnegative, negative; the compressed forms also leave in Vi, from element 0 on, the numbers of the elements that pass,
in rising order, and may not name the register tested as result. Of the other VM bits and elements nothing is said. -/
def Obligations.MaskTests : Prop :=
  ∀ (s : State) (i j : BitVec 3), s.cpu.vl ≠ 0 → s.cpu.vl.toNat ≤ 64 →
    let mask := fun (t : State) (p : Int → Bool) =>
      ∀ e : BitVec 6, e.toNat < s.cpu.vl.toNat → t.cpu.vm.getLsbD (63 - e.toNat) = p (s.velem j e).toInt
    let tests := fun (o : Out) (p : Int → Bool) =>
      ∃ t, o = .next t ∧ Moved s t 1 ∧ SameBytes s t ∧ mask t p ∧
        t = { s with cpu := { s.cpu with vm := t.cpu.vm, vused := true, p := t.cpu.p }, draws := t.draws }
    let compresses := fun (o : Out) (p : Int → Bool) =>
      (i = j → o = .refused .vectorOverlap) ∧
      (i ≠ j → ∃ t, o = .next t ∧ Moved s t 1 ∧ SameBytes s t ∧ mask t p ∧
        (∀ m e : Nat,
          ((List.range s.cpu.vl.toNat).filter fun n => p (s.velem j (BitVec.ofNat 6 n)).toInt)[m]? = some e →
          (t.velem i (BitVec.ofNat 6 m)).toNat = e) ∧
        (∀ r, r ≠ i → regGet t.cpu.v r = regGet s.cpu.v r) ∧
        t = { s with cpu := { s.cpu with v := t.cpu.v, vm := t.cpu.vm, vused := true, p := t.cpu.p }
                     draws := t.draws })
    tests (exec (.vmTestZ j) s) (fun x => x == 0) ∧ tests (exec (.vmTestN j) s) (fun x => x != 0) ∧
    tests (exec (.vmTestP j) s) (fun x => decide (0 ≤ x)) ∧ tests (exec (.vmTestM j) s) (fun x => decide (x < 0)) ∧
    compresses (exec (.vmCidxZ i j) s) (fun x => x == 0) ∧ compresses (exec (.vmCidxN i j) s) (fun x => x != 0) ∧
    compresses (exec (.vmCidxP i j) s) (fun x => decide (0 ≤ x)) ∧
    compresses (exec (.vmCidxM i j) s) (fun x => decide (x < 0))

/-- R205, R400, R405 to R413: the shifts by the full value of (Ak) (the spec's decision D16) as multiplication and division
by powers of two, bits shifted out lost; the elements at and above VL are kept (the spec's decision D14); a double shift takes the left or right half of a 128-bit number: in the scalar
forms with the actual (Si) in it, in the vector forms an element joined with the next one (zero after the last) on its
right, or with the one before (zero before the first) on its left (the zero partners are the spec's decision D17, taken
from general knowledge and not from its source, log 9); the vector double shifts may not name their operand as result. -/
def Obligations.ShiftsByRegister : Prop :=
  ∀ (s : State) (i j k : BitVec 3),
    let v := (regGet s.cpu.s i).toNat
    let c := (s.akVal k).toNat
    let d := (s.sjVal j).toNat
    let x := fun (e : Nat) => (s.velem j (BitVec.ofNat 6 e)).toNat
    let next := fun (e : Nat) => if e + 1 < s.cpu.vl.toNat then x (e + 1) else 0
    let prev := fun (e : Nat) => if e = 0 then 0 else x (e - 1)
    GivesS (exec (.sDshl i j k) s) s i 1 (fun w => w.toNat = (v * 2 ^ 64 + d) * 2 ^ c / 2 ^ 64 % 2 ^ 64) ∧
    GivesS (exec (.sDshr i j k) s) s i 1 (fun w => w.toNat = (d * 2 ^ 64 + v) / 2 ^ c % 2 ^ 64) ∧
    (s.cpu.vl ≠ 0 → s.cpu.vl.toNat ≤ 64 →
      GivesV (exec (.vShl i j k) s) s i (fun e w => w.toNat = x e.toNat * 2 ^ c % 2 ^ 64) ∧
      GivesV (exec (.vShr i j k) s) s i (fun e w => w.toNat = x e.toNat / 2 ^ c) ∧
      (i ≠ j →
        GivesV (exec (.vDshl i j k) s) s i
          (fun e w => w.toNat = (x e.toNat * 2 ^ 64 + next e.toNat) * 2 ^ c / 2 ^ 64 % 2 ^ 64) ∧
        GivesV (exec (.vDshr i j k) s) s i
          (fun e w => w.toNat = (prev e.toNat * 2 ^ 64 + x e.toNat) / 2 ^ c % 2 ^ 64))) ∧
    (i = j → exec (.vDshl i j k) s = .refused .vectorOverlap ∧ exec (.vDshr i j k) s = .refused .vectorOverlap)

/-- R430 to R434: the number of ones, its parity, and the number of leading zeros (64 of the zero word). -/
def Obligations.BitCounts : Prop :=
  ∀ (s : State) (i j : BitVec 3),
    GivesA (exec (.aPop i j) s) s i 1 (fun a => a.toNat = countOnes (s.sjVal j)) ∧
    GivesA (exec (.aParity i j) s) s i 1 (fun a => a.toNat = countOnes (s.sjVal j) % 2) ∧
    GivesA (exec (.aLzc i j) s) s i 1 (fun a => IsLeadingZeros (s.sjVal j) a.toNat) ∧
    (s.cpu.vl ≠ 0 →
      GivesV (exec (.vPop i j) s) s i (fun e w => w.toNat = countOnes (s.velem j e)) ∧
      GivesV (exec (.vParity i j) s) s i (fun e w => w.toNat = countOnes (s.velem j e) % 2))

/-! ## Branches and exits (48_branch.md) -/

/-- R442 to R444, R447 to R450: a jump goes to its target; a branch on A0 zero or nonzero, or on S0, goes to its target or
to the next instruction; A0 (AW bits) and S0 (64 bits) are tested by their actual contents. Nothing else changes. -/
def Obligations.Branches : Prop :=
  ∀ (s : State) (exp : BitVec 24),
    let a := (regGet s.cpu.a 0).toNat % 2 ^ addrWidth s.cpu.m.eam
    let v := (regGet s.cpu.s 0).toInt
    let goes := fun (o : Out) (c : Prop) => (c → JumpsTo o s exp) ∧ (¬ c → Passes o s 2)
    JumpsTo (exec (.jExp exp) s) s exp ∧
    goes (exec (.jaz exp) s) (a = 0) ∧ goes (exec (.jan exp) s) (a ≠ 0) ∧
    goes (exec (.jsz exp) s) (v = 0) ∧ goes (exec (.jsn exp) s) (v ≠ 0) ∧
    goes (exec (.jsp exp) s) (0 ≤ v) ∧ goes (exec (.jsm exp) s) (v < 0)

/-- R441, R445, R446, R452: a branch on the sign of A0, which is that of a two's complement number of AW bits (the spec
derives it); a jump through a B register, which of more than 24 bits stops by name (the decision D54); a return jump,
after which B00 holds the address of the instruction that follows it (the spec derives it). -/
def Obligations.BranchesOnSignAndThroughB : Prop :=
  ∀ (s : State) (exp : BitVec 24) (jk : BitVec 6),
    let n := 2 ^ addrWidth s.cpu.m.eam
    let a := (regGet s.cpu.a 0).toNat % n
    let b := (regGet s.cpu.b jk).toNat % n
    let goes := fun (o : Out) (c : Prop) => (c → JumpsTo o s exp) ∧ (¬ c → Passes o s 2)
    goes (exec (.jap exp) s) (2 * a < n) ∧ goes (exec (.jam exp) s) (n ≤ 2 * a) ∧
    (b < 2 ^ 24 → JumpsTo (exec (.jB jk) s) s (BitVec.ofNat 24 b)) ∧
    (2 ^ 24 ≤ b → exec (.jB jk) s = .refused .branchTooWide) ∧
    ∃ t, exec (.rExp exp) s = .next t ∧ t.cpu.p = exp ∧
      (regGet t.cpu.b 0).toNat = (s.cpu.p.toNat + 2) % 2 ^ 24 ∧ (∀ r, r ≠ 0 → regGet t.cpu.b r = regGet s.cpu.b r) ∧
      t = { s with cpu := { s.cpu with b := t.cpu.b, p := exp } } ∧ SameBytes s t

/-- R453, R454, R521, R522: an exit moves P past itself, sets its flag (NEX in user mode; EEX in user mode and in monitor
mode under IMM) and exchanges in every mode; where the exchange can go on, the stored package holds that P and that
flag, and the CPU runs with the P and flags of the package that was there (F.ME may be set besides if memory errors
accompany the reads of the package, which the model has the incoming program note, log 25). -/
def Obligations.ExitsExchange : Prop :=
  ∀ s : State, CanExchange s → s.params.wf = true → s.cpu.deadstart = false →
    let leaves := fun (o : Out) (f : FlagName) (set : Bool) =>
      ∃ t, o = .next t ∧
        let img := Memory.readImage t.mem s.cpu.packageBase 16
        Holds s img .p (BitVec.ofNat 64 ((s.cpu.p.toNat + 1) % 2 ^ 24)) ∧
        (∀ n : FlagName, Holds s img (.flag n)
          ((BitVec.ofBool (s.cpu.f.get n || (decide (n = f) && set))).setWidth 64)) ∧
        t.cpu.p = (readField s.params.xp s.package .p).setWidth 24 ∧
        t.cpu.f = { readFieldFlags s.params.xp s.package with me := t.cpu.f.me } ∧
        (s.packageErrors 16 = [] → t.cpu.f.me = (readFieldFlags s.params.xp s.package).me)
    leaves (exec .ex s) .nex (!s.cpu.m.mm) ∧ leaves (exec .err s) .eex (!s.cpu.m.mm || s.cpu.m.imm)

/-! ## The exchange (60_exceptions.md) -/

/-- R531, R532: the exchange loads every field R531 lists from the package at 16 * XA (so the mode, the ranges and P of
the next program), clears `vused`, the hold and the record of references, and keeps PN, B, T, V, VM, the clocks, the
requests and the sticky bits; the rest of the machine is unchanged but for the package's 16 words. R13: an A register
takes the low 24 bits of its field in X-mode; that the mode is that of the package loaded is the model's choice (log 39).
Memory errors that accompany the reads of the package are noted by the incoming program under its own M, with no older
error data: R519 and R530 leave open which program notes them, and the model follows R534 in it (log 25). That the record
of references ends with the exchange is the model's choice too (log 13). -/
def Obligations.ExchangeLoadsThePackage : Prop :=
  ∀ s : State, CanExchange s →
    let lay := s.params.xp
    let img := s.package
    let get := readField lay img
    let c := s.cpu
    ∃ t, s.exchangeSequence = .next t ∧
      (∀ i, (regGet t.cpu.a i).toNat = (get (.a i)).toNat % 2 ^ 32 % 2 ^ addrWidth t.cpu.m.eam) ∧
      (∀ i, regGet t.cpu.s i = get (.s i)) ∧
      t.cpu.p = (get .p).setWidth 24 ∧ t.cpu.xa = (get .xa).setWidth 8 ∧ t.cpu.vl = (get .vl).setWidth 7 ∧
      t.cpu.cln = (get .cln).setWidth 4 ∧
      t.cpu.iba.toNat = (get .iba).toNat * 2 ^ s.params.blGrain % 2 ^ 32 ∧
      t.cpu.ila.toNat = (get .ila).toNat * 2 ^ s.params.blGrain % 2 ^ 32 ∧
      t.cpu.dba.toNat = (get .dba).toNat * 2 ^ s.params.blGrain % 2 ^ 32 ∧
      t.cpu.dla.toNat = (get .dla).toNat * 2 ^ s.params.blGrain % 2 ^ 32 ∧
      (∀ n, n ≠ .me → t.cpu.f.get n = (get (.flag n)).getLsbD 0) ∧
      ErrorsSeen { c with f := readFieldFlags lay img, m := t.cpu.m, memErr := none } t.cpu (s.packageErrors 16) ∧
      (∀ n, t.cpu.m.get n = (get (.mode n)).getLsbD 0) ∧
      t.cpu.cbw = (get .cbw).getLsbD 0 ∧ t.cpu.sbo = (get .sbo).getLsbD 0 ∧
      t.cpu = { t.cpu with
        pn := c.pn, started := c.started, b := c.b, t := c.t, v := c.v, vm := c.vm, ii := c.ii, pc := c.pc
        pciEnabled := c.pciEnabled, pciRequest := c.pciRequest, ipiRequest := c.ipiRequest, vused := false
        deadstart := false, holding := none, refs := [] } ∧
      t = { s with cpu := t.cpu, mem := t.mem, writeLog := t.writeLog, writeClock := t.writeClock, draws := t.draws } ∧
      SameBytesOutside s t (fun w => c.packageBase ≤ w ∧ w < c.packageBase + 16)

/-- R531, R56, R43, R44, R47, R48: under any admissible layout every field R531 lists can be read back from the stored
package: PN, P, the base and limit registers in units of the grain, XA, VL, CLN, F, M, CBW, SBO, the A registers (R13: their
low 24 bits in X-mode, by the mode of the program that goes out, log 39) and the S registers, VNU (no vector instruction ran), WS (a test and set holds issue), and the memory error data if any was recorded. -/
def Obligations.ExchangeStoresTheProgram : Prop :=
  ∀ s t : State, s.params.wf = true → s.cpu.deadstart = false → s.exchangeSequence = .next t →
    let img := Memory.readImage t.mem s.cpu.packageBase 16
    let c := s.cpu
    let bit := fun b => (BitVec.ofBool b).setWidth 64
    let base := fun (b : BitVec 32) => BitVec.ofNat 64 (b.toNat / 2 ^ s.params.blGrain)
    Holds s img .pn (c.pn.setWidth 64) ∧ Holds s img .p (c.p.setWidth 64) ∧
    Holds s img .iba (base c.iba) ∧ Holds s img .ila (base c.ila) ∧ Holds s img .dba (base c.dba) ∧
    Holds s img .dla (base c.dla) ∧ Holds s img .xa (c.xa.setWidth 64) ∧ Holds s img .vl (c.vl.setWidth 64) ∧
    Holds s img .cln (c.cln.setWidth 64) ∧ Holds s img .cbw (bit c.cbw) ∧ Holds s img .sbo (bit c.sbo) ∧
    (∀ n, Holds s img (.flag n) (bit (c.f.get n))) ∧ (∀ n, Holds s img (.mode n) (bit (c.m.get n))) ∧
    (∀ i, Holds s img (.a i) (BitVec.ofNat 64 ((regGet c.a i).toNat % 2 ^ addrWidth c.m.eam))) ∧ (∀ i, Holds s img (.s i) (regGet c.s i)) ∧
    Holds s img .vnu (bit (!c.vused)) ∧ Holds s img .ws (bit c.holding.isSome) ∧
    (∀ e, c.memErr = some e →
      Holds s img .syndrome (e.syndrome.setWidth 64) ∧ Holds s img .readBank (e.readBank.setWidth 64) ∧
      Holds s img .errType (e.errType.setWidth 64) ∧ Holds s img .port (e.port.setWidth 64) ∧
      Holds s img .chipSelect (e.chipSelect.setWidth 64) ∧ Holds s img .readMode (e.readMode.setWidth 64))

/-- R531, R533: an exchange out and, where the package loaded names the same XA, an exchange straight back restore the
program: every register the package holds is as it was, an A register as it was read (R13: its low 24 bits in X-mode). The
base and limit registers must be multiples of the grain that fit their fields, VL and CLN in their range, and no memory
error accompany the reads of the package. The model's choices in it: the mode that masks an A register, and so what
becomes of its upper 8 bits when the two programs differ in their address mode (log 39); that the error data end with
the interval (log 21) and the record of references with the exchange (log 13). -/
def Obligations.ExchangeBackRestoresTheProgram : Prop :=
  ∀ s t : State, s.params.wf = true → s.cpu.deadstart = false → s.cpu.vl.toNat ≤ 64 →
    s.cpu.cln.toNat ≤ s.params.ncluster → Storable s s.cpu.iba → Storable s s.cpu.ila → Storable s s.cpu.dba →
    Storable s s.cpu.dla → s.packageErrors 16 = [] → s.exchangeSequence = .next t → t.cpu.xa = s.cpu.xa →
    ∃ u, t.exchangeSequence = .next u ∧
      (∀ i, (regGet u.cpu.a i).toNat = (regGet s.cpu.a i).toNat % 2 ^ addrWidth s.cpu.m.eam) ∧
      u.cpu = { s.cpu with a := u.cpu.a, vused := false, memErr := none, holding := none, refs := []
                           intervalStart := u.cpu.intervalStart } ∧
      SameBytesOutside s u (fun w => s.cpu.packageBase ≤ w ∧ w < s.cpu.packageBase + 16)

/-- R512, R514, R523: in user mode a boundary turns an interprocessor request into F.ICP and an enabled clock request
into F.PCI; in monitor mode, whatever IMM, it sets neither and the requests stay. -/
def Obligations.RequestsSetFlags : Prop :=
  ∀ s : State,
    let t := s.atBoundary
    (t.cpu.f.icp = true ↔ s.cpu.f.icp = true ∨ (s.cpu.ipiRequest = true ∧ s.cpu.m.mm = false)) ∧
    (t.cpu.f.pci = true ↔
      s.cpu.f.pci = true ∨ (s.cpu.pciRequest = true ∧ s.cpu.pciEnabled = true ∧ s.cpu.m.mm = false)) ∧
    t.cpu.ipiRequest = s.cpu.ipiRequest ∧ t.cpu.pciRequest = s.cpu.pciRequest

/-- R520: at a boundary at which some channel requests an interrupt that some running CPU in user mode may take (the
configuration may restrict the CPUs of a channel), exactly one such CPU gets F.IOI, one with SEI if there is one; otherwise
no F.IOI changes. The CPUs have distinct numbers. -/
def Obligations.ChannelInterruptIsRouted : Prop :=
  ∀ s : State, ((s.cpu :: s.others).map Cpu.pn).Nodup →
    let t := s.routeIo
    let before := s.cpu :: s.others
    let after := t.cpu :: t.others
    let able := fun (c : Cpu) => c.started = true ∧ c.deadstart = false ∧ c.m.mm = false ∧
      ∃ ch ∈ s.channels, ch.intFlag = true ∧ c.pn ∈ ch.serves
    ((∃ c ∈ before, able c) →
      ∃ p, (∃ c ∈ before, c.pn = p ∧ able c ∧ ((∃ d ∈ before, able d ∧ d.m.sei = true) → c.m.sei = true)) ∧
        after = before.map fun c => if c.pn = p then { c with f := { c.f with ioi := true } } else c) ∧
    (¬ (∃ c ∈ before, able c) → after = before)

/-- R513: when every running CPU of the moving CPU's cluster holds issue on a semaphore that is still 1, the boundary
sets F.DL of those whose gate is open, and of no other; when some CPU of the cluster does not, it sets none. R240, R530: a
CPU that holds issue on a test and set is at a boundary at every step: with no flag set it tries the test and set again,
wherever P stands and whatever memory holds, and goes on holding while the semaphore is 1. -/
def Obligations.HoldsAndDeadlock : Prop :=
  (∀ s : State, s.cpu.running = true →
    let t := s.checkDeadlock
    let group := fun (c : Cpu) => c.running = true ∧ c.cln = s.cpu.cln
    let holds := fun (c : Cpu) => ∃ jk, c.holding = some jk ∧ (regGet s.clusters s.cpu.cln).smIsSet jk = true
    let gate := fun (c : Cpu) => c.m.mm = false ∨ c.m.imm = true
    let dead := s.cpu.cln ≠ 0 ∧ ∀ c ∈ s.cpus, group c → holds c
    List.Forall₂ (fun c d => d = { c with f := { c.f with dl := d.f.dl } } ∧
        (d.f.dl = true ↔ c.f.dl = true ∨ (dead ∧ group c ∧ gate c))) s.cpus t.cpus ∧
    t = { s with cpu := t.cpu, others := t.others }) ∧
  ∀ (s u : State) (jk : BitVec 6), s.deliver = .ok u → u.cpu.running = true → u.atBoundary.cpu.f.any = false →
    u.cpu.holding = some jk → u.cpu.cln ≠ 0 → jk.toNat < 32 →
    ((regGet u.clusters u.cpu.cln).smIsSet jk = true → step s = .next u.atBoundary) ∧
    ((regGet u.clusters u.cpu.cln).smIsSet jk = false →
      ∃ t, step s = .next t ∧ t.cpu.holding = none ∧ Moved u t 1 ∧
        (regGet t.clusters u.cpu.cln).smIsSet jk = true)

/-- R565, R599: in a fair run (the fairness assumptions of R599, which no step of the model enforces, log 29) a CPU that is
running and does not hold issue comes to its next boundary; until then the other CPUs and the world change none of its
registers, and its requests stay pending: only its flags and error state, and the programmable clock, may differ. Unless
the IOS deadstarts it, or one of its registers has a parity error, before. -/
def Obligations.FairRunsReachEveryCpu : Prop :=
  ∀ (w : World) (run : Nat → State) (n : Nat) (c : Cpu), Run w run → Fair w run → (run n).Inv → c ∈ (run n).cpus →
    c.running = true → c.holding = none →
    (∀ m, n ≤ m → (∀ xa, Event.deadstart c.pn xa ∉ w m) ∧ ∀ reg info, Event.parityError c.pn reg info ∉ w m) →
    ∃ m u, n ≤ m ∧ Delivered w run m u ∧
      u.cpu = { c with
        f := u.cpu.f, memErr := u.cpu.memErr, cmeSeen := u.cpu.cmeSeen, umeSeen := u.cpu.umeSeen, pc := u.cpu.pc
        pciRequest := u.cpu.pciRequest, ipiRequest := u.cpu.ipiRequest } ∧
      (c.ipiRequest = true → u.cpu.ipiRequest = true) ∧ (c.pciRequest = true → u.cpu.pciRequest = true)

/-- R519, R524 (R58): a register parity error in a CPU is an uncorrectable memory error of that CPU, and changes, besides,
the one register it names, of whose value nothing is said; that the value goes is the model's choice (log 25). No other
CPU sees it. -/
def Obligations.RegisterParityErrors : Prop :=
  ∀ (s : State) (p : BitVec 3) (reg : ParityReg) (info : MemErrInfo),
    ∃ t, s.happen (.parityError p reg info) = .ok t ∧
      List.Forall₂ (fun c d => (c.pn ≠ p → d = c) ∧
        (c.pn = p → ErrorsSeen c d [{ site := .operand 0, kind := .uncorrectable, info := info }] ∧
          (∀ i, reg ≠ .a i → regGet d.a i = regGet c.a i) ∧ (∀ i, reg ≠ .b i → regGet d.b i = regGet c.b i) ∧
          (∀ i, reg ≠ .s i → regGet d.s i = regGet c.s i) ∧ (∀ i, reg ≠ .t i → regGet d.t i = regGet c.t i) ∧
          (∀ i e, reg ≠ .v i e → regGet (regGet d.v i) e = regGet (regGet c.v i) e) ∧
          d = { c with a := d.a, b := d.b, s := d.s, t := d.t, v := d.v, umeSeen := d.umeSeen, f := d.f
                       memErr := d.memErr })) s.cpus t.cpus ∧
      t = { s with cpu := t.cpu, others := t.others, draws := t.draws }

/-! ## Monitor mode instructions (49_monitor_mode.md) -/

/-- R470, R471: in user mode each of the privileged instructions only advances P by one parcel. -/
def Obligations.PrivilegedInUserModePasses : Prop :=
  ∀ (s : State) (j k : BitVec 3) (x : Instr), s.cpu.m.mm = false →
    x ∈ [.chCa j k, .chCl j k, .chCi j, .chMc j, .xaFromA j, .rtcLoad j, .sipi j, .cipi, .clnLoad j, .pciLoad j, .cci,
      .eci, .dci] → Passes (exec x s) s 1

/-- R473 to R477: in monitor mode the channel instructions write the registers and flags of the channel (Aj) and of no
other: CA with activation and CL of an idle channel, the flags, master-clear of an output channel, ready-held of an
input channel. An unknown channel, and CA or CL of an active one, stop by name. -/
def Obligations.ChannelControl : Prop :=
  ∀ (s : State) (j k : BitVec 3), s.cpu.m.mm = true →
    let n := s.ajVal j
    let gives := fun (o : Out) (f : Channel → Channel) =>
      ∃ t, o = .next t ∧ Moved s t 1 ∧ SameBytes s t ∧
        t.channels = s.channels.map (fun c => if c.num = n then f c else c) ∧
        t = { s with cpu := { s.cpu with p := t.cpu.p }, channels := t.channels }
    (∀ c, s.channel n = some c →
      (c.active = false → gives (exec (.chCa j k) s) (fun c => { c with ca := s.akVal k, active := true }) ∧
        gives (exec (.chCl j k) s) (fun c => { c with cl := s.akVal k })) ∧
      (c.active = true →
        exec (.chCa j k) s = .refused .channelActive ∧ exec (.chCl j k) s = .refused .channelActive) ∧
      gives (exec (.chCi j) s) (fun c => { c with
        intFlag := false, errFlag := false, masterClear := c.masterClear && decide (c.dir = .input) }) ∧
      gives (exec (.chMc j) s) (fun c => { c with
        intFlag := false, errFlag := false, masterClear := c.masterClear || decide (c.dir = .output)
        readyHeld := c.readyHeld && decide (c.dir = .output) })) ∧
    (s.channel n = none → ∀ x ∈ [.chCa j k, .chCl j k, .chCi j, .chMc j], exec x s = .refused .channelNumber)

/-- R478, R480 to R486: in monitor mode XA, the real-time clock, the programmable clock and its request and
enable bits, and the CPU's own interprocessor request are written as their rules say; an operand beyond the exchange
address field, or beyond 32 bits, stops by name (decisions D55, D56). R484, R487: with the operand (Aj) in Y-mode and the
value of j in X-mode, a request to another CPU that exists sets that CPU's request bit and no other, and a cluster number
that exists is loaded; the other operands stop by name (decisions D57, D22). -/
def Obligations.MonitorControl : Prop :=
  ∀ (s : State) (j : BitVec 3), s.cpu.m.mm = true →
    let c := s.cpu
    let a := (s.ajVal j).toNat
    let v := (s.sjVal j).toNat
    let x := if s.cpu.m.eam then (s.ajVal j).toNat else j.toNat
    let gives := fun (o : Out) (q : State → Prop) (d : State → Cpu) =>
      ∃ t, o = .next t ∧ Moved s t 1 ∧ SameBytes s t ∧ q t ∧ t = { s with cpu := d t, rtc := t.rtc }
    (a < 2 ^ 12 → s.params.xaSel = .addr →
      gives (exec (.xaFromA j) s) (fun t => t.cpu.xa.toNat = a / 16 ∧ t.rtc = s.rtc)
        (fun t => { c with p := t.cpu.p, xa := t.cpu.xa })) ∧
    (a < 2 ^ 8 → s.params.xaSel = .low8 →
      gives (exec (.xaFromA j) s) (fun t => t.cpu.xa.toNat = a ∧ t.rtc = s.rtc)
        (fun t => { c with p := t.cpu.p, xa := t.cpu.xa })) ∧
    ((2 ^ 12 ≤ a ∨ (2 ^ 8 ≤ a ∧ s.params.xaSel = .low8)) → exec (.xaFromA j) s = .refused .xaOperand) ∧
    gives (exec (.rtcLoad j) s) (fun t => t.rtc = s.sjVal j) (fun t => { c with p := t.cpu.p }) ∧
    (v < 2 ^ 32 →
      gives (exec (.pciLoad j) s) (fun t => t.cpu.ii.toNat = v ∧ t.cpu.pc.toNat = v ∧ t.rtc = s.rtc)
        (fun t => { c with p := t.cpu.p, ii := t.cpu.ii, pc := t.cpu.pc })) ∧
    (2 ^ 32 ≤ v → exec (.pciLoad j) s = .refused .clockOperand) ∧
    gives (exec .cci s) (fun t => t.rtc = s.rtc) (fun t => { c with p := t.cpu.p, pciRequest := false }) ∧
    gives (exec .eci s) (fun t => t.rtc = s.rtc) (fun t => { c with p := t.cpu.p, pciEnabled := true }) ∧
    gives (exec .dci s) (fun t => t.rtc = s.rtc) (fun t => { c with p := t.cpu.p, pciEnabled := false }) ∧
    gives (exec .cipi s) (fun t => t.rtc = s.rtc) (fun t => { c with p := t.cpu.p, ipiRequest := false }) ∧
    (x < s.params.ncpu → x ≠ s.cpu.pn.toNat →
      ∃ t, exec (.sipi j) s = .next t ∧ Moved s t 1 ∧ SameBytes s t ∧
        t.others = s.others.map (fun c => if c.pn.toNat = x then { c with ipiRequest := true } else c) ∧
        t = { s with cpu := { s.cpu with p := t.cpu.p }, others := t.others }) ∧
    (s.params.ncpu ≤ x → exec (.sipi j) s = .refused .sipiTarget) ∧
    (x < s.params.ncpu → x = s.cpu.pn.toNat → exec (.sipi j) s = .refused .sipiSelf) ∧
    (x ≤ s.params.ncluster → s.params.ncluster < 16 →
      ∃ t, exec (.clnLoad j) s = .next t ∧ Moved s t 1 ∧ SameBytes s t ∧ t.cpu.cln.toNat = x ∧
        t = { s with cpu := { s.cpu with p := t.cpu.p, cln := t.cpu.cln } }) ∧
    (s.params.ncluster < x → exec (.clnLoad j) s = .refused .clusterNumber)

/-- R495 to R497: the channel reads, in any mode: the number of the first channel of the priority order that requests an
interrupt (with none requesting, nothing is said of the value), and CA or the error flag of the channel (Aj), modulo
2^AW; an unknown channel stops by name. -/
def Obligations.ChannelReads : Prop :=
  ∀ (s : State) (i j : BitVec 3),
    let n := 2 ^ addrWidth s.cpu.m.eam
    (∀ l c r, s.channels = l ++ c :: r → c.intFlag = true → (∀ d ∈ l, d.intFlag = false) →
      GivesA (exec (.aFromCi i) s) s i 1 (fun a => a.toNat = c.num.toNat % n)) ∧
    ((∀ d ∈ s.channels, d.intFlag = false) →
      ∃ t, exec (.aFromCi i) s = .next t ∧ Moved s t 1 ∧ SameBytes s t ∧
        (∀ r, r ≠ i → regGet t.cpu.a r = regGet s.cpu.a r) ∧
        t = { s with cpu := { s.cpu with a := t.cpu.a, p := t.cpu.p }, draws := t.draws }) ∧
    (j ≠ 0 → ∀ c, s.channel (s.ajVal j) = some c →
      GivesA (exec (.aFromCa i j) s) s i 1 (fun a => a.toNat = c.ca.toNat % n) ∧
      GivesA (exec (.aFromCe i j) s) s i 1 (fun a => a.toNat = if c.errFlag then 1 else 0)) ∧
    (j ≠ 0 → s.channel (s.ajVal j) = none →
      exec (.aFromCa i j) s = .refused .channelNumber ∧ exec (.aFromCe i j) s = .refused .channelNumber)

/-! ## The agents outside the instruction streams -/

/-- R550, R552: one tick adds 1 to the real-time clock and takes 1 from every programmable clock; a clock at 1 reloads
from II (decision D59) and sets the request; nothing else changes. A clock at 0 stops by name. That the clocks of CPUs that
were never started run too, and that one clock at 0 stops the whole machine, is the model's choice (log 26). R560: one pass of an active
channel's loop moves one word at CA and adds 1 to CA (an input channel stores the word the device delivers, an output
channel changes no memory), or, at CA = CL, ends the transfer and requests an interrupt. Other channels are unchanged. -/
def Obligations.TicksAndChannelWords : Prop :=
  (∀ s : State,
    ((∀ c ∈ s.cpus, c.pc ≠ 0) →
      ∃ t, s.tick = .ok t ∧ t.rtc.toNat = (s.rtc.toNat + 1) % 2 ^ 64 ∧
        List.Forall₂ (fun c d =>
          d = { c with pc := d.pc, pciRequest := d.pciRequest } ∧
          (c.pc.toNat = 1 → d.pc = c.ii ∧ d.pciRequest = true) ∧
          (c.pc.toNat ≠ 1 → d.pc.toNat = c.pc.toNat - 1 ∧ d.pciRequest = c.pciRequest)) s.cpus t.cpus ∧
        t = { s with cpu := t.cpu, others := t.others, rtc := t.rtc }) ∧
    ((∃ c ∈ s.cpus, c.pc = 0) → s.tick = .error (.refuse .clockAtZero))) ∧
  ∀ (s : State) (n : Addr) (w : Word) (c : Channel), s.channel n = some c → c.active = true →
    (c.ca = c.cl → s.chanStep n w = .ok { s with channels :=
      (s.channels.map fun d => if d.num = n then { d with active := false, intFlag := true } else d) }) ∧
    (c.ca ≠ c.cl → c.ca.toNat < s.params.memWords →
      ∃ t, s.chanStep n w = .ok t ∧
        t.channels = s.channels.map (fun d => if d.num = n then { d with ca := d.ca + 1 } else d) ∧
        (c.dir = .output → SameBytes s t) ∧
        (c.dir = .input → Memory.readWord t.mem c.ca.toNat = w ∧ SameBytesOutside s t (fun a => a = c.ca.toNat)) ∧
        t = { s with mem := t.mem, channels := t.channels, writeLog := t.writeLog, writeClock := t.writeClock })
end

