-- ==== Sys2Proof/Laws/Decode.lean ====
section
/-! SUPPORT. The fields of a parcel put together (30_encoding.md R121, R123): what extraction gives back, and what
joining the split parts of a combined field gives back. -/

namespace Sys2Proof

@[simp] theorem fieldG_mkParcel (g : BitVec 4) (h i j k : BitVec 3) : fieldG (mkParcel g h i j k) = g := by
  unfold fieldG mkParcel
  apply BitVec.eq_of_getLsbD_eq
  intro n hn
  simp only [BitVec.getLsbD_extractLsb', BitVec.getLsbD_append]
  rw [decide_eq_true hn]
  repeat' split
  all_goals first | omega | (rw [Bool.true_and]; congr 1; omega)

@[simp] theorem fieldH_mkParcel (g : BitVec 4) (h i j k : BitVec 3) : fieldH (mkParcel g h i j k) = h := by
  unfold fieldH mkParcel
  apply BitVec.eq_of_getLsbD_eq
  intro n hn
  simp only [BitVec.getLsbD_extractLsb', BitVec.getLsbD_append]
  rw [decide_eq_true hn]
  repeat' split
  all_goals first | omega | (rw [Bool.true_and]; congr 1; omega)

@[simp] theorem fieldI_mkParcel (g : BitVec 4) (h i j k : BitVec 3) : fieldI (mkParcel g h i j k) = i := by
  unfold fieldI mkParcel
  apply BitVec.eq_of_getLsbD_eq
  intro n hn
  simp only [BitVec.getLsbD_extractLsb', BitVec.getLsbD_append]
  rw [decide_eq_true hn]
  repeat' split
  all_goals first | omega | (rw [Bool.true_and]; congr 1; omega)

@[simp] theorem fieldJ_mkParcel (g : BitVec 4) (h i j k : BitVec 3) : fieldJ (mkParcel g h i j k) = j := by
  unfold fieldJ mkParcel
  apply BitVec.eq_of_getLsbD_eq
  intro n hn
  simp only [BitVec.getLsbD_extractLsb', BitVec.getLsbD_append]
  rw [decide_eq_true hn]
  repeat' split
  all_goals first | omega | (rw [Bool.true_and]; congr 1; omega)

@[simp] theorem fieldK_mkParcel (g : BitVec 4) (h i j k : BitVec 3) : fieldK (mkParcel g h i j k) = k := by
  unfold fieldK mkParcel
  apply BitVec.eq_of_getLsbD_eq
  intro n hn
  simp only [BitVec.getLsbD_extractLsb', BitVec.getLsbD_append]
  rw [decide_eq_true hn]
  repeat' split
  all_goals first | omega | (rw [Bool.true_and]; congr 1; omega)

@[simp] theorem joinJk_split (jk : BitVec 6) :
    joinJk (jk.extractLsb' 3 3) (jk.extractLsb' 0 3) = jk := by
  unfold joinJk
  apply BitVec.eq_of_getLsbD_eq
  intro n hn
  simp only [BitVec.getLsbD_extractLsb', BitVec.getLsbD_append]
  repeat' split
  all_goals rw [decide_eq_true (by omega), Bool.true_and]; congr 1; omega

@[simp] theorem joinJkm_split (jkm : BitVec 22) :
    joinJkm (jkm.extractLsb' 19 3) (jkm.extractLsb' 16 3) (jkm.extractLsb' 0 16) = jkm := by
  unfold joinJkm
  apply BitVec.eq_of_getLsbD_eq
  intro n hn
  simp only [BitVec.getLsbD_extractLsb', BitVec.getLsbD_append]
  repeat' split
  all_goals rw [decide_eq_true (by omega), Bool.true_and]; congr 1; omega

@[simp] theorem joinNm_split (nm : BitVec 32) :
    joinNm (nm.extractLsb' 0 16) (nm.extractLsb' 16 16) = nm := by
  unfold joinNm
  apply BitVec.eq_of_getLsbD_eq
  intro n hn
  simp only [BitVec.getLsbD_extractLsb', BitVec.getLsbD_append]
  repeat' split
  all_goals rw [decide_eq_true (by omega), Bool.true_and]; congr 1; omega

@[simp] theorem joinAddr24_split (fl : BitVec 1) (a : BitVec 24) :
    joinAddr24 (fl ++ a.extractLsb' 22 2) (a.extractLsb' 19 3) (a.extractLsb' 16 3) (a.extractLsb' 0 16) = a := by
  unfold joinAddr24
  apply BitVec.eq_of_getLsbD_eq
  intro n hn
  simp only [BitVec.getLsbD_extractLsb', BitVec.getLsbD_append]
  repeat' split
  all_goals first
    | omega
    | (rw [decide_eq_true (by omega), Bool.true_and]; congr 1; omega)
    | (rw [decide_eq_true (by omega), Bool.true_and, decide_eq_true (by omega), Bool.true_and]; congr 1; omega)

@[simp] theorem iFlag_flag (fl : BitVec 1) (x : BitVec 2) : iFlag (fl ++ x) = fl.getLsbD 0 := by
  unfold iFlag
  rw [BitVec.getLsbD_append]
  simp

end Sys2Proof
end

