-- ==== Sys2Proof/Laws/FloatUnit.lean ====
section
/-! SUPPORT. The fields of a floating-point word that `fpPack` puts together (44_floating_point.md R310). -/

namespace Sys2Proof.Machine

@[simp] theorem fpSign_fpPack (s : Bool) (x : Nat) (c : BitVec 48) : fpSign (fpPack s x c) = s := by
  show (BitVec.ofBool s ++ BitVec.ofNat 15 x ++ c : BitVec (1 + 15 + 48)).getLsbD 63 = s
  rw [BitVec.getLsbD_append, BitVec.getLsbD_append]
  cases s <;> rfl

@[simp] theorem fpExp_fpPack (s : Bool) (x : Nat) (c : BitVec 48) : fpExp (fpPack s x c) = x % 2 ^ 15 := by
  rw [← BitVec.toNat_ofNat (w := 15)]
  show ((BitVec.ofBool s ++ BitVec.ofNat 15 x ++ c : BitVec (1 + 15 + 48)).extractLsb' 48 15).toNat = _
  congr 1
  ext i hi
  rw [BitVec.getElem_extractLsb', BitVec.getLsbD_append, BitVec.getLsbD_append]
  simp [BitVec.getLsbD_eq_getElem, hi]

@[simp] theorem fpCoef_fpPack (s : Bool) (x : Nat) (c : BitVec 48) : fpCoef (fpPack s x c) = c.toNat := by
  show ((BitVec.ofBool s ++ BitVec.ofNat 15 x ++ c : BitVec (1 + 15 + 48)).extractLsb' 0 48).toNat = _
  congr 1
  ext i hi
  rw [BitVec.getElem_extractLsb', BitVec.getLsbD_append]
  simp [BitVec.getLsbD_eq_getElem, hi]

end Sys2Proof.Machine
end

