-- ==== Sys2Proof/Laws/Memory.lean ====
section
/-! SUPPORT. The laws of central memory: a read gives the last write, a write leaves every other place alone, and
every operation keeps the canonical form. They hold of every list of cells, canonical or not, but for the last. -/

namespace Sys2Proof.Machine

open Sys2Proof

/-! ## Bytes -/

theorem readByte_erase (m : Memory) (a x : Nat) :
    Memory.readByte (Memory.erase m a) x = if x = a then 0 else Memory.readByte m x := by
  induction m with
  | nil => simp [Memory.erase, Memory.readByte]
  | cons c rest ih =>
    obtain ⟨y, b⟩ := c
    simp only [Memory.erase] at ih ⊢
    by_cases hy : y = a
    · subst hy
      by_cases hx : x = y
      · simp_all
      · simp_all [Memory.readByte, Ne.symm hx]
    · by_cases hx : y = x
      · subst hx; simp_all [Memory.readByte]
      · simp_all [Memory.readByte]

theorem readByte_insertCell (m : Memory) (a x : Nat) (v : Byte) :
    Memory.readByte (Memory.insertCell (Memory.erase m a) a v) x =
      if x = a then v else Memory.readByte m x := by
  have key : ∀ l : Memory, (∀ c ∈ l, c.1 ≠ a) →
      Memory.readByte (Memory.insertCell l a v) x = if x = a then v else Memory.readByte l x := by
    intro l hl
    induction l with
    | nil =>
      by_cases hx : x = a
      · simp [Memory.insertCell, Memory.readByte, hx]
      · simp [Memory.insertCell, Memory.readByte, hx, Ne.symm hx]
    | cons c rest ih =>
      obtain ⟨y, b⟩ := c
      have hy : y ≠ a := hl (y, b) (by simp)
      have ih := ih fun c hc => hl c (by simp [hc])
      simp only [Memory.insertCell]
      split
      · by_cases hyx : y = x
        · subst hyx; simp [Memory.readByte, hy]
        · simp [Memory.readByte, hyx, ih]
      · by_cases hx : x = a
        · subst hx; simp [Memory.readByte]
        · simp [Memory.readByte, hx, Ne.symm hx]
  have hmem : ∀ c ∈ Memory.erase m a, c.1 ≠ a := by
    intro c hc
    simpa [Memory.erase] using (List.mem_filter.mp hc).2
  rw [key _ hmem, readByte_erase]
  by_cases hx : x = a <;> simp [hx]

/-- A byte read after a byte write: the byte written, or what was there. -/
theorem readByte_writeByte (m : Memory) (a x : Nat) (v : Byte) :
    Memory.readByte (Memory.writeByte m a v) x = if x = a then v else Memory.readByte m x := by
  unfold Memory.writeByte
  split
  · rename_i h; subst h; exact readByte_erase m a x
  · exact readByte_insertCell m a x v

/-! ## Words -/

/-- A write elsewhere leaves a byte alone. -/
theorem readByte_writeByte_ne (m : Memory) {a x : Nat} (v : Byte) (h : x ≠ a) :
    Memory.readByte (Memory.writeByte m a v) x = Memory.readByte m x := by
  rw [readByte_writeByte]; exact if_neg h

/-- Bytes outside a word's eight are untouched by a write of the word. -/
theorem readByte_writeWord_out (m : Memory) (a x : Nat) (v : Word) (h : x < 8 * a ∨ 8 * a + 8 ≤ x) :
    Memory.readByte (Memory.writeWord m a v) x = Memory.readByte m x := by
  unfold Memory.writeWord
  repeat rw [readByte_writeByte_ne _ _ (by omega : x ≠ _)]

/-- A word read after it was written is the word written (20_memory.md R97). -/
@[simp] theorem readWord_writeWord_same (m : Memory) (a : Nat) (v : Word) :
    Memory.readWord (Memory.writeWord m a v) a = v := by
  have e : ∀ i j : Nat, (8 * a + i = 8 * a + j) ↔ i = j := fun i j => by omega
  have e0 : ∀ i : Nat, (8 * a = 8 * a + i) ↔ i = 0 := fun i => by omega
  have e1 : ∀ i : Nat, (8 * a + i = 8 * a) ↔ i = 0 := fun i => by omega
  simp only [Memory.readWord, Memory.writeWord, readByte_writeByte, e, e0, e1]
  simp only [Nat.reduceEqDiff, if_true, if_false, OfNat.ofNat_ne_zero, one_ne_zero]
  apply BitVec.eq_of_getLsbD_eq
  intro i hi
  simp only [BitVec.getLsbD_append, BitVec.getLsbD_extractLsb']
  repeat' split
  all_goals rw [decide_eq_true (by omega), Bool.true_and]; congr 1; omega

/-- Every other word is left alone (R97). -/
theorem readWord_writeWord_ne (m : Memory) (a b : Nat) (v : Word) (h : b ≠ a) :
    Memory.readWord (Memory.writeWord m a v) b = Memory.readWord m b := by
  have out : ∀ n, n < 8 → Memory.readByte (Memory.writeWord m a v) (8 * b + n) = Memory.readByte m (8 * b + n) :=
    fun n hn => readByte_writeWord_out m a _ v (by omega)
  have first := out 0 (by omega)
  rw [Nat.add_zero] at first
  simp only [Memory.readWord, first, out, Nat.reduceLT]

/-! ## The canonical form -/

theorem wf_iff (m : Memory) :
    Memory.wf m = true ↔ m.Pairwise (fun x y => x.1 < y.1) ∧ ∀ c ∈ m, c.2 ≠ 0 := by
  simp [Memory.wf]

theorem erase_wf (m : Memory) (a : Nat) (h : Memory.wf m = true) : Memory.wf (Memory.erase m a) = true := by
  rw [wf_iff] at h ⊢
  refine ⟨h.1.sublist List.filter_sublist, fun c hc => h.2 c ?_⟩
  exact (List.mem_filter.mp hc).1

theorem insertCell_mem (m : Memory) (a : Nat) (v : Byte) (c : Host.Cell) :
    c ∈ Memory.insertCell m a v ↔ c = (a, v) ∨ c ∈ m := by
  induction m with
  | nil => simp [Memory.insertCell]
  | cons d rest ih =>
    simp only [Memory.insertCell]
    split
    · simp [ih]; tauto
    · simp

theorem insertCell_wf (m : Memory) (a : Nat) (v : Byte) (hv : v ≠ 0) (ha : ∀ c ∈ m, c.1 ≠ a)
    (h : Memory.wf m = true) : Memory.wf (Memory.insertCell m a v) = true := by
  rw [wf_iff] at h ⊢
  obtain ⟨hp, hz⟩ := h
  refine ⟨?_, fun c hc => ?_⟩
  · induction m with
    | nil => simp [Memory.insertCell]
    | cons d rest ih =>
      obtain ⟨x, b⟩ := d
      have hx : x ≠ a := ha (x, b) (by simp)
      rw [List.pairwise_cons] at hp
      simp only [Memory.insertCell]
      split
      · rename_i hlt
        refine List.pairwise_cons.mpr ⟨fun c hc => ?_, ih (fun c hc => ha c (by simp [hc])) hp.2
          (fun c hc => hz c (by simp [hc]))⟩
        rcases (insertCell_mem rest a v c).mp hc with rfl | hc
        · exact hlt
        · exact hp.1 c hc
      · rename_i hlt
        refine List.pairwise_cons.mpr ⟨fun c hc => ?_, List.pairwise_cons.mpr hp⟩
        rcases List.mem_cons.mp hc with rfl | hc
        · have hlt' : ¬ x < a := hlt
          show a < x
          omega
        · have := hp.1 c hc
          have hlt' : ¬ x < a := hlt
          simp only at this ⊢
          omega
  · rcases (insertCell_mem m a v c).mp hc with rfl | hc
    · exact hv
    · exact hz c hc

theorem writeByte_wf (m : Memory) (a : Nat) (v : Byte) (h : Memory.wf m = true) :
    Memory.wf (Memory.writeByte m a v) = true := by
  unfold Memory.writeByte
  split
  · exact erase_wf m a h
  · rename_i hv
    refine insertCell_wf _ a v hv (fun c hc => ?_) (erase_wf m a h)
    simpa [Memory.erase] using (List.mem_filter.mp hc).2

/-- A word write keeps the canonical form. -/
theorem writeWord_wf (m : Memory) (a : Nat) (v : Word) (h : Memory.wf m = true) :
    Memory.wf (Memory.writeWord m a v) = true := by
  unfold Memory.writeWord
  repeat' apply writeByte_wf
  exact h

/-- The memory of the state after a list of word writes is canonical if it was before. -/
theorem memWrites_wf (s : State) (l : List (Option (Nat × Word))) (h : Memory.wf s.mem = true) :
    Memory.wf (s.memWrites l).mem = true := by
  induction l generalizing s with
  | nil => exact h
  | cons x rest ih =>
    cases x with
    | none => exact ih s h
    | some p => exact ih _ (writeWord_wf s.mem p.1 p.2 h)

theorem writeImage_wf (s : State) (a : Nat) (img : PackageImage) (n : Nat) (h : Memory.wf s.mem = true) :
    Memory.wf (s.writeImage a img n).mem = true := by
  induction n with
  | zero => exact h
  | succ k ih => exact writeWord_wf _ _ _ ih

end Sys2Proof.Machine
end

