-- ==== Sys2Proof/Laws/State.lean ====
section
/-! SUPPORT. What each update of the machine does to each field of `State`: one lemma per field per update. Where an
update changes the CPU, its lemma gives the new CPU as a record, so that every field of it is one projection away. -/

namespace Sys2Proof.Machine

open Sys2Proof

variable (s : State)

/-! ## withCpu -/

@[simp] theorem State.withCpu_params (c : Cpu) : (s.withCpu c).params = s.params := rfl
@[simp] theorem State.withCpu_cpu (c : Cpu) : (s.withCpu c).cpu = c := rfl
@[simp] theorem State.withCpu_others (c : Cpu) : (s.withCpu c).others = s.others := rfl
@[simp] theorem State.withCpu_mem (c : Cpu) : (s.withCpu c).mem = s.mem := rfl
@[simp] theorem State.withCpu_rtc (c : Cpu) : (s.withCpu c).rtc = s.rtc := rfl
@[simp] theorem State.withCpu_clusters (c : Cpu) : (s.withCpu c).clusters = s.clusters := rfl
@[simp] theorem State.withCpu_channels (c : Cpu) : (s.withCpu c).channels = s.channels := rfl
@[simp] theorem State.withCpu_writeLog (c : Cpu) : (s.withCpu c).writeLog = s.writeLog := rfl
@[simp] theorem State.withCpu_writeClock (c : Cpu) : (s.withCpu c).writeClock = s.writeClock := rfl
@[simp] theorem State.withCpu_draws (c : Cpu) : (s.withCpu c).draws = s.draws := rfl
@[simp] theorem State.withCpu_agenda (c : Cpu) : (s.withCpu c).agenda = s.agenda := rfl
@[simp] theorem State.withCpu_readErrors (c : Cpu) : (s.withCpu c).readErrors = s.readErrors := rfl

/-! ## writeA -/

@[simp] theorem State.writeA_params (i : BitVec 3) (v : Addr) : (s.writeA i v).params = s.params := rfl
@[simp] theorem State.writeA_cpu (i : BitVec 3) (v : Addr) :
    (s.writeA i v).cpu = { s.cpu with a := regPut s.cpu.a i (amask s.cpu.m.eam v) } := rfl
@[simp] theorem State.writeA_others (i : BitVec 3) (v : Addr) : (s.writeA i v).others = s.others := rfl
@[simp] theorem State.writeA_mem (i : BitVec 3) (v : Addr) : (s.writeA i v).mem = s.mem := rfl
@[simp] theorem State.writeA_rtc (i : BitVec 3) (v : Addr) : (s.writeA i v).rtc = s.rtc := rfl
@[simp] theorem State.writeA_clusters (i : BitVec 3) (v : Addr) : (s.writeA i v).clusters = s.clusters := rfl
@[simp] theorem State.writeA_channels (i : BitVec 3) (v : Addr) : (s.writeA i v).channels = s.channels := rfl
@[simp] theorem State.writeA_writeLog (i : BitVec 3) (v : Addr) : (s.writeA i v).writeLog = s.writeLog := rfl
@[simp] theorem State.writeA_writeClock (i : BitVec 3) (v : Addr) : (s.writeA i v).writeClock = s.writeClock := rfl
@[simp] theorem State.writeA_draws (i : BitVec 3) (v : Addr) : (s.writeA i v).draws = s.draws := rfl
@[simp] theorem State.writeA_agenda (i : BitVec 3) (v : Addr) : (s.writeA i v).agenda = s.agenda := rfl
@[simp] theorem State.writeA_readErrors (i : BitVec 3) (v : Addr) : (s.writeA i v).readErrors = s.readErrors := rfl

/-! ## writeB -/

@[simp] theorem State.writeB_params (n : BitVec 6) (v : Addr) : (s.writeB n v).params = s.params := rfl
@[simp] theorem State.writeB_cpu (n : BitVec 6) (v : Addr) :
    (s.writeB n v).cpu = { s.cpu with b := regPut s.cpu.b n (amask s.cpu.m.eam v) } := rfl
@[simp] theorem State.writeB_others (n : BitVec 6) (v : Addr) : (s.writeB n v).others = s.others := rfl
@[simp] theorem State.writeB_mem (n : BitVec 6) (v : Addr) : (s.writeB n v).mem = s.mem := rfl
@[simp] theorem State.writeB_rtc (n : BitVec 6) (v : Addr) : (s.writeB n v).rtc = s.rtc := rfl
@[simp] theorem State.writeB_clusters (n : BitVec 6) (v : Addr) : (s.writeB n v).clusters = s.clusters := rfl
@[simp] theorem State.writeB_channels (n : BitVec 6) (v : Addr) : (s.writeB n v).channels = s.channels := rfl
@[simp] theorem State.writeB_writeLog (n : BitVec 6) (v : Addr) : (s.writeB n v).writeLog = s.writeLog := rfl
@[simp] theorem State.writeB_writeClock (n : BitVec 6) (v : Addr) : (s.writeB n v).writeClock = s.writeClock := rfl
@[simp] theorem State.writeB_draws (n : BitVec 6) (v : Addr) : (s.writeB n v).draws = s.draws := rfl
@[simp] theorem State.writeB_agenda (n : BitVec 6) (v : Addr) : (s.writeB n v).agenda = s.agenda := rfl
@[simp] theorem State.writeB_readErrors (n : BitVec 6) (v : Addr) : (s.writeB n v).readErrors = s.readErrors := rfl

/-! ## writeS -/

@[simp] theorem State.writeS_params (i : BitVec 3) (v : Word) : (s.writeS i v).params = s.params := rfl
@[simp] theorem State.writeS_cpu (i : BitVec 3) (v : Word) :
    (s.writeS i v).cpu = { s.cpu with s := regPut s.cpu.s i v } := rfl
@[simp] theorem State.writeS_others (i : BitVec 3) (v : Word) : (s.writeS i v).others = s.others := rfl
@[simp] theorem State.writeS_mem (i : BitVec 3) (v : Word) : (s.writeS i v).mem = s.mem := rfl
@[simp] theorem State.writeS_rtc (i : BitVec 3) (v : Word) : (s.writeS i v).rtc = s.rtc := rfl
@[simp] theorem State.writeS_clusters (i : BitVec 3) (v : Word) : (s.writeS i v).clusters = s.clusters := rfl
@[simp] theorem State.writeS_channels (i : BitVec 3) (v : Word) : (s.writeS i v).channels = s.channels := rfl
@[simp] theorem State.writeS_writeLog (i : BitVec 3) (v : Word) : (s.writeS i v).writeLog = s.writeLog := rfl
@[simp] theorem State.writeS_writeClock (i : BitVec 3) (v : Word) : (s.writeS i v).writeClock = s.writeClock := rfl
@[simp] theorem State.writeS_draws (i : BitVec 3) (v : Word) : (s.writeS i v).draws = s.draws := rfl
@[simp] theorem State.writeS_agenda (i : BitVec 3) (v : Word) : (s.writeS i v).agenda = s.agenda := rfl
@[simp] theorem State.writeS_readErrors (i : BitVec 3) (v : Word) : (s.writeS i v).readErrors = s.readErrors := rfl

/-! ## writeT -/

@[simp] theorem State.writeT_params (n : BitVec 6) (v : Word) : (s.writeT n v).params = s.params := rfl
@[simp] theorem State.writeT_cpu (n : BitVec 6) (v : Word) :
    (s.writeT n v).cpu = { s.cpu with t := regPut s.cpu.t n v } := rfl
@[simp] theorem State.writeT_others (n : BitVec 6) (v : Word) : (s.writeT n v).others = s.others := rfl
@[simp] theorem State.writeT_mem (n : BitVec 6) (v : Word) : (s.writeT n v).mem = s.mem := rfl
@[simp] theorem State.writeT_rtc (n : BitVec 6) (v : Word) : (s.writeT n v).rtc = s.rtc := rfl
@[simp] theorem State.writeT_clusters (n : BitVec 6) (v : Word) : (s.writeT n v).clusters = s.clusters := rfl
@[simp] theorem State.writeT_channels (n : BitVec 6) (v : Word) : (s.writeT n v).channels = s.channels := rfl
@[simp] theorem State.writeT_writeLog (n : BitVec 6) (v : Word) : (s.writeT n v).writeLog = s.writeLog := rfl
@[simp] theorem State.writeT_writeClock (n : BitVec 6) (v : Word) : (s.writeT n v).writeClock = s.writeClock := rfl
@[simp] theorem State.writeT_draws (n : BitVec 6) (v : Word) : (s.writeT n v).draws = s.draws := rfl
@[simp] theorem State.writeT_agenda (n : BitVec 6) (v : Word) : (s.writeT n v).agenda = s.agenda := rfl
@[simp] theorem State.writeT_readErrors (n : BitVec 6) (v : Word) : (s.writeT n v).readErrors = s.readErrors := rfl

/-! ## writeV -/

@[simp] theorem State.writeV_params (i : BitVec 3) (x : Vector Word (2 ^ 6)) : (s.writeV i x).params = s.params := rfl
@[simp] theorem State.writeV_cpu (i : BitVec 3) (x : Vector Word (2 ^ 6)) :
    (s.writeV i x).cpu = { s.cpu with v := regPut s.cpu.v i x } := rfl
@[simp] theorem State.writeV_others (i : BitVec 3) (x : Vector Word (2 ^ 6)) : (s.writeV i x).others = s.others := rfl
@[simp] theorem State.writeV_mem (i : BitVec 3) (x : Vector Word (2 ^ 6)) : (s.writeV i x).mem = s.mem := rfl
@[simp] theorem State.writeV_rtc (i : BitVec 3) (x : Vector Word (2 ^ 6)) : (s.writeV i x).rtc = s.rtc := rfl
@[simp] theorem State.writeV_clusters (i : BitVec 3) (x : Vector Word (2 ^ 6)) :
    (s.writeV i x).clusters = s.clusters := rfl
@[simp] theorem State.writeV_channels (i : BitVec 3) (x : Vector Word (2 ^ 6)) :
    (s.writeV i x).channels = s.channels := rfl
@[simp] theorem State.writeV_writeLog (i : BitVec 3) (x : Vector Word (2 ^ 6)) :
    (s.writeV i x).writeLog = s.writeLog := rfl
@[simp] theorem State.writeV_writeClock (i : BitVec 3) (x : Vector Word (2 ^ 6)) :
    (s.writeV i x).writeClock = s.writeClock := rfl
@[simp] theorem State.writeV_draws (i : BitVec 3) (x : Vector Word (2 ^ 6)) : (s.writeV i x).draws = s.draws := rfl
@[simp] theorem State.writeV_agenda (i : BitVec 3) (x : Vector Word (2 ^ 6)) : (s.writeV i x).agenda = s.agenda := rfl
@[simp] theorem State.writeV_readErrors (i : BitVec 3) (x : Vector Word (2 ^ 6)) :
    (s.writeV i x).readErrors = s.readErrors := rfl

/-! ## writeVm -/

@[simp] theorem State.writeVm_params (v : Word) : (s.writeVm v).params = s.params := rfl
@[simp] theorem State.writeVm_cpu (v : Word) : (s.writeVm v).cpu = { s.cpu with vm := v } := rfl
@[simp] theorem State.writeVm_others (v : Word) : (s.writeVm v).others = s.others := rfl
@[simp] theorem State.writeVm_mem (v : Word) : (s.writeVm v).mem = s.mem := rfl
@[simp] theorem State.writeVm_rtc (v : Word) : (s.writeVm v).rtc = s.rtc := rfl
@[simp] theorem State.writeVm_clusters (v : Word) : (s.writeVm v).clusters = s.clusters := rfl
@[simp] theorem State.writeVm_channels (v : Word) : (s.writeVm v).channels = s.channels := rfl
@[simp] theorem State.writeVm_writeLog (v : Word) : (s.writeVm v).writeLog = s.writeLog := rfl
@[simp] theorem State.writeVm_writeClock (v : Word) : (s.writeVm v).writeClock = s.writeClock := rfl
@[simp] theorem State.writeVm_draws (v : Word) : (s.writeVm v).draws = s.draws := rfl
@[simp] theorem State.writeVm_agenda (v : Word) : (s.writeVm v).agenda = s.agenda := rfl
@[simp] theorem State.writeVm_readErrors (v : Word) : (s.writeVm v).readErrors = s.readErrors := rfl

/-! ## writeVl -/

@[simp] theorem State.writeVl_params (v : BitVec 7) : (s.writeVl v).params = s.params := rfl
@[simp] theorem State.writeVl_cpu (v : BitVec 7) : (s.writeVl v).cpu = { s.cpu with vl := v } := rfl
@[simp] theorem State.writeVl_others (v : BitVec 7) : (s.writeVl v).others = s.others := rfl
@[simp] theorem State.writeVl_mem (v : BitVec 7) : (s.writeVl v).mem = s.mem := rfl
@[simp] theorem State.writeVl_rtc (v : BitVec 7) : (s.writeVl v).rtc = s.rtc := rfl
@[simp] theorem State.writeVl_clusters (v : BitVec 7) : (s.writeVl v).clusters = s.clusters := rfl
@[simp] theorem State.writeVl_channels (v : BitVec 7) : (s.writeVl v).channels = s.channels := rfl
@[simp] theorem State.writeVl_writeLog (v : BitVec 7) : (s.writeVl v).writeLog = s.writeLog := rfl
@[simp] theorem State.writeVl_writeClock (v : BitVec 7) : (s.writeVl v).writeClock = s.writeClock := rfl
@[simp] theorem State.writeVl_draws (v : BitVec 7) : (s.writeVl v).draws = s.draws := rfl
@[simp] theorem State.writeVl_agenda (v : BitVec 7) : (s.writeVl v).agenda = s.agenda := rfl
@[simp] theorem State.writeVl_readErrors (v : BitVec 7) : (s.writeVl v).readErrors = s.readErrors := rfl

/-! ## writeM -/

@[simp] theorem State.writeM_params (m : Mode) : (s.writeM m).params = s.params := rfl
@[simp] theorem State.writeM_cpu (m : Mode) : (s.writeM m).cpu = { s.cpu with m := m } := rfl
@[simp] theorem State.writeM_others (m : Mode) : (s.writeM m).others = s.others := rfl
@[simp] theorem State.writeM_mem (m : Mode) : (s.writeM m).mem = s.mem := rfl
@[simp] theorem State.writeM_rtc (m : Mode) : (s.writeM m).rtc = s.rtc := rfl
@[simp] theorem State.writeM_clusters (m : Mode) : (s.writeM m).clusters = s.clusters := rfl
@[simp] theorem State.writeM_channels (m : Mode) : (s.writeM m).channels = s.channels := rfl
@[simp] theorem State.writeM_writeLog (m : Mode) : (s.writeM m).writeLog = s.writeLog := rfl
@[simp] theorem State.writeM_writeClock (m : Mode) : (s.writeM m).writeClock = s.writeClock := rfl
@[simp] theorem State.writeM_draws (m : Mode) : (s.writeM m).draws = s.draws := rfl
@[simp] theorem State.writeM_agenda (m : Mode) : (s.writeM m).agenda = s.agenda := rfl
@[simp] theorem State.writeM_readErrors (m : Mode) : (s.writeM m).readErrors = s.readErrors := rfl

/-! ## markVector -/

@[simp] theorem State.markVector_params : (s.markVector).params = s.params := rfl
@[simp] theorem State.markVector_cpu : (s.markVector).cpu = { s.cpu with vused := true } := rfl
@[simp] theorem State.markVector_others : (s.markVector).others = s.others := rfl
@[simp] theorem State.markVector_mem : (s.markVector).mem = s.mem := rfl
@[simp] theorem State.markVector_rtc : (s.markVector).rtc = s.rtc := rfl
@[simp] theorem State.markVector_clusters : (s.markVector).clusters = s.clusters := rfl
@[simp] theorem State.markVector_channels : (s.markVector).channels = s.channels := rfl
@[simp] theorem State.markVector_writeLog : (s.markVector).writeLog = s.writeLog := rfl
@[simp] theorem State.markVector_writeClock : (s.markVector).writeClock = s.writeClock := rfl
@[simp] theorem State.markVector_draws : (s.markVector).draws = s.draws := rfl
@[simp] theorem State.markVector_agenda : (s.markVector).agenda = s.agenda := rfl
@[simp] theorem State.markVector_readErrors : (s.markVector).readErrors = s.readErrors := rfl

/-! ## advance -/

@[simp] theorem State.advance_params (n : Nat) : (s.advance n).params = s.params := rfl
@[simp] theorem State.advance_cpu (n : Nat) :
    (s.advance n).cpu = { s.cpu with p := s.cpu.p + BitVec.ofNat 24 n } := rfl
@[simp] theorem State.advance_others (n : Nat) : (s.advance n).others = s.others := rfl
@[simp] theorem State.advance_mem (n : Nat) : (s.advance n).mem = s.mem := rfl
@[simp] theorem State.advance_rtc (n : Nat) : (s.advance n).rtc = s.rtc := rfl
@[simp] theorem State.advance_clusters (n : Nat) : (s.advance n).clusters = s.clusters := rfl
@[simp] theorem State.advance_channels (n : Nat) : (s.advance n).channels = s.channels := rfl
@[simp] theorem State.advance_writeLog (n : Nat) : (s.advance n).writeLog = s.writeLog := rfl
@[simp] theorem State.advance_writeClock (n : Nat) : (s.advance n).writeClock = s.writeClock := rfl
@[simp] theorem State.advance_draws (n : Nat) : (s.advance n).draws = s.draws := rfl
@[simp] theorem State.advance_agenda (n : Nat) : (s.advance n).agenda = s.agenda := rfl
@[simp] theorem State.advance_readErrors (n : Nat) : (s.advance n).readErrors = s.readErrors := rfl

/-! ## jump -/

@[simp] theorem State.jump_params (p : PAddr) : (s.jump p).params = s.params := rfl
@[simp] theorem State.jump_cpu (p : PAddr) : (s.jump p).cpu = { s.cpu with p := p } := rfl
@[simp] theorem State.jump_others (p : PAddr) : (s.jump p).others = s.others := rfl
@[simp] theorem State.jump_mem (p : PAddr) : (s.jump p).mem = s.mem := rfl
@[simp] theorem State.jump_rtc (p : PAddr) : (s.jump p).rtc = s.rtc := rfl
@[simp] theorem State.jump_clusters (p : PAddr) : (s.jump p).clusters = s.clusters := rfl
@[simp] theorem State.jump_channels (p : PAddr) : (s.jump p).channels = s.channels := rfl
@[simp] theorem State.jump_writeLog (p : PAddr) : (s.jump p).writeLog = s.writeLog := rfl
@[simp] theorem State.jump_writeClock (p : PAddr) : (s.jump p).writeClock = s.writeClock := rfl
@[simp] theorem State.jump_draws (p : PAddr) : (s.jump p).draws = s.draws := rfl
@[simp] theorem State.jump_agenda (p : PAddr) : (s.jump p).agenda = s.agenda := rfl
@[simp] theorem State.jump_readErrors (p : PAddr) : (s.jump p).readErrors = s.readErrors := rfl

/-! ## hold -/

@[simp] theorem State.hold_params (h : Option (BitVec 6)) : (s.hold h).params = s.params := rfl
@[simp] theorem State.hold_cpu (h : Option (BitVec 6)) : (s.hold h).cpu = { s.cpu with holding := h } := rfl
@[simp] theorem State.hold_others (h : Option (BitVec 6)) : (s.hold h).others = s.others := rfl
@[simp] theorem State.hold_mem (h : Option (BitVec 6)) : (s.hold h).mem = s.mem := rfl
@[simp] theorem State.hold_rtc (h : Option (BitVec 6)) : (s.hold h).rtc = s.rtc := rfl
@[simp] theorem State.hold_clusters (h : Option (BitVec 6)) : (s.hold h).clusters = s.clusters := rfl
@[simp] theorem State.hold_channels (h : Option (BitVec 6)) : (s.hold h).channels = s.channels := rfl
@[simp] theorem State.hold_writeLog (h : Option (BitVec 6)) : (s.hold h).writeLog = s.writeLog := rfl
@[simp] theorem State.hold_writeClock (h : Option (BitVec 6)) : (s.hold h).writeClock = s.writeClock := rfl
@[simp] theorem State.hold_draws (h : Option (BitVec 6)) : (s.hold h).draws = s.draws := rfl
@[simp] theorem State.hold_agenda (h : Option (BitVec 6)) : (s.hold h).agenda = s.agenda := rfl
@[simp] theorem State.hold_readErrors (h : Option (BitVec 6)) : (s.hold h).readErrors = s.readErrors := rfl

/-! ## fpError -/

@[simp] theorem State.fpError_params (b : Bool) : (s.fpError b).params = s.params := by
  cases b <;> rfl
@[simp] theorem State.fpError_cpu (b : Bool) :
    (s.fpError b).cpu = if b then s.cpu.raiseFpe else s.cpu := by
  cases b <;> rfl
@[simp] theorem State.fpError_others (b : Bool) : (s.fpError b).others = s.others := by
  cases b <;> rfl
@[simp] theorem State.fpError_mem (b : Bool) : (s.fpError b).mem = s.mem := by
  cases b <;> rfl
@[simp] theorem State.fpError_rtc (b : Bool) : (s.fpError b).rtc = s.rtc := by
  cases b <;> rfl
@[simp] theorem State.fpError_clusters (b : Bool) : (s.fpError b).clusters = s.clusters := by
  cases b <;> rfl
@[simp] theorem State.fpError_channels (b : Bool) : (s.fpError b).channels = s.channels := by
  cases b <;> rfl
@[simp] theorem State.fpError_writeLog (b : Bool) : (s.fpError b).writeLog = s.writeLog := by
  cases b <;> rfl
@[simp] theorem State.fpError_writeClock (b : Bool) : (s.fpError b).writeClock = s.writeClock := by
  cases b <;> rfl
@[simp] theorem State.fpError_draws (b : Bool) : (s.fpError b).draws = s.draws := by
  cases b <;> rfl
@[simp] theorem State.fpError_agenda (b : Bool) : (s.fpError b).agenda = s.agenda := by
  cases b <;> rfl
@[simp] theorem State.fpError_readErrors (b : Bool) : (s.fpError b).readErrors = s.readErrors := by
  cases b <;> rfl

/-! ## drawn -/

@[simp] theorem State.drawn_params (n : Nat) : (s.drawn n).params = s.params := rfl
@[simp] theorem State.drawn_cpu (n : Nat) : (s.drawn n).cpu = s.cpu := rfl
@[simp] theorem State.drawn_others (n : Nat) : (s.drawn n).others = s.others := rfl
@[simp] theorem State.drawn_mem (n : Nat) : (s.drawn n).mem = s.mem := rfl
@[simp] theorem State.drawn_rtc (n : Nat) : (s.drawn n).rtc = s.rtc := rfl
@[simp] theorem State.drawn_clusters (n : Nat) : (s.drawn n).clusters = s.clusters := rfl
@[simp] theorem State.drawn_channels (n : Nat) : (s.drawn n).channels = s.channels := rfl
@[simp] theorem State.drawn_writeLog (n : Nat) : (s.drawn n).writeLog = s.writeLog := rfl
@[simp] theorem State.drawn_writeClock (n : Nat) : (s.drawn n).writeClock = s.writeClock := rfl
@[simp] theorem State.drawn_draws (n : Nat) : (s.drawn n).draws = s.draws + n := rfl
@[simp] theorem State.drawn_agenda (n : Nat) : (s.drawn n).agenda = s.agenda := rfl
@[simp] theorem State.drawn_readErrors (n : Nat) : (s.drawn n).readErrors = s.readErrors := rfl

/-! ## drawnIf -/

@[simp] theorem State.drawnIf_params (b : Bool) (n : Nat) : (s.drawnIf b n).params = s.params := by
  cases b <;> rfl
@[simp] theorem State.drawnIf_cpu (b : Bool) (n : Nat) : (s.drawnIf b n).cpu = s.cpu := by
  cases b <;> rfl
@[simp] theorem State.drawnIf_others (b : Bool) (n : Nat) : (s.drawnIf b n).others = s.others := by
  cases b <;> rfl
@[simp] theorem State.drawnIf_mem (b : Bool) (n : Nat) : (s.drawnIf b n).mem = s.mem := by
  cases b <;> rfl
@[simp] theorem State.drawnIf_rtc (b : Bool) (n : Nat) : (s.drawnIf b n).rtc = s.rtc := by
  cases b <;> rfl
@[simp] theorem State.drawnIf_clusters (b : Bool) (n : Nat) :
    (s.drawnIf b n).clusters = s.clusters := by
  cases b <;> rfl
@[simp] theorem State.drawnIf_channels (b : Bool) (n : Nat) :
    (s.drawnIf b n).channels = s.channels := by
  cases b <;> rfl
@[simp] theorem State.drawnIf_writeLog (b : Bool) (n : Nat) :
    (s.drawnIf b n).writeLog = s.writeLog := by
  cases b <;> rfl
@[simp] theorem State.drawnIf_writeClock (b : Bool) (n : Nat) :
    (s.drawnIf b n).writeClock = s.writeClock := by
  cases b <;> rfl
@[simp] theorem State.drawnIf_draws (b : Bool) (n : Nat) :
    (s.drawnIf b n).draws = if b then s.draws + n else s.draws := by
  cases b <;> rfl
@[simp] theorem State.drawnIf_agenda (b : Bool) (n : Nat) : (s.drawnIf b n).agenda = s.agenda := by
  cases b <;> rfl
@[simp] theorem State.drawnIf_readErrors (b : Bool) (n : Nat) :
    (s.drawnIf b n).readErrors = s.readErrors := by
  cases b <;> rfl

/-! ## afterBlock -/

@[simp] theorem State.afterBlock_params (b : Bool) (n : Nat) :
    (s.afterBlock b n).params = s.params := by
  cases b <;> rfl
@[simp] theorem State.afterBlock_cpu (b : Bool) (n : Nat) :
    (s.afterBlock b n).cpu = if b then s.cpu.raiseOre else s.cpu := by
  cases b <;> rfl
@[simp] theorem State.afterBlock_others (b : Bool) (n : Nat) :
    (s.afterBlock b n).others = s.others := by
  cases b <;> rfl
@[simp] theorem State.afterBlock_mem (b : Bool) (n : Nat) : (s.afterBlock b n).mem = s.mem := by
  cases b <;> rfl
@[simp] theorem State.afterBlock_rtc (b : Bool) (n : Nat) : (s.afterBlock b n).rtc = s.rtc := by
  cases b <;> rfl
@[simp] theorem State.afterBlock_clusters (b : Bool) (n : Nat) :
    (s.afterBlock b n).clusters = s.clusters := by
  cases b <;> rfl
@[simp] theorem State.afterBlock_channels (b : Bool) (n : Nat) :
    (s.afterBlock b n).channels = s.channels := by
  cases b <;> rfl
@[simp] theorem State.afterBlock_writeLog (b : Bool) (n : Nat) :
    (s.afterBlock b n).writeLog = s.writeLog := by
  cases b <;> rfl
@[simp] theorem State.afterBlock_writeClock (b : Bool) (n : Nat) :
    (s.afterBlock b n).writeClock = s.writeClock := by
  cases b <;> rfl
@[simp] theorem State.afterBlock_draws (b : Bool) (n : Nat) :
    (s.afterBlock b n).draws = if b then s.draws + n else s.draws := by
  cases b <;> rfl
@[simp] theorem State.afterBlock_agenda (b : Bool) (n : Nat) :
    (s.afterBlock b n).agenda = s.agenda := by
  cases b <;> rfl
@[simp] theorem State.afterBlock_readErrors (b : Bool) (n : Nat) :
    (s.afterBlock b n).readErrors = s.readErrors := by
  cases b <;> rfl

/-! ## afterReads -/

@[simp] theorem State.afterReads_params (l : List ReadError) (n : Nat) : (s.afterReads l n).params = s.params := rfl
@[simp] theorem State.afterReads_cpu (l : List ReadError) (n : Nat) :
    (s.afterReads l n).cpu = s.cpu.noteErrors l := rfl
@[simp] theorem State.afterReads_others (l : List ReadError) (n : Nat) : (s.afterReads l n).others = s.others := rfl
@[simp] theorem State.afterReads_mem (l : List ReadError) (n : Nat) : (s.afterReads l n).mem = s.mem := rfl
@[simp] theorem State.afterReads_rtc (l : List ReadError) (n : Nat) : (s.afterReads l n).rtc = s.rtc := rfl
@[simp] theorem State.afterReads_clusters (l : List ReadError) (n : Nat) :
    (s.afterReads l n).clusters = s.clusters := rfl
@[simp] theorem State.afterReads_channels (l : List ReadError) (n : Nat) :
    (s.afterReads l n).channels = s.channels := rfl
@[simp] theorem State.afterReads_writeLog (l : List ReadError) (n : Nat) :
    (s.afterReads l n).writeLog = s.writeLog := rfl
@[simp] theorem State.afterReads_writeClock (l : List ReadError) (n : Nat) :
    (s.afterReads l n).writeClock = s.writeClock := rfl
@[simp] theorem State.afterReads_draws (l : List ReadError) (n : Nat) :
    (s.afterReads l n).draws = s.draws + (if spoiled l then n else 0) := rfl
@[simp] theorem State.afterReads_agenda (l : List ReadError) (n : Nat) : (s.afterReads l n).agenda = s.agenda := rfl
@[simp] theorem State.afterReads_readErrors (l : List ReadError) (n : Nat) :
    (s.afterReads l n).readErrors = s.readErrors := rfl

/-! ## memWrite -/

@[simp] theorem State.memWrite_params (a : Nat) (v : Word) : (s.memWrite a v).params = s.params := rfl
@[simp] theorem State.memWrite_cpu (a : Nat) (v : Word) : (s.memWrite a v).cpu = s.cpu := rfl
@[simp] theorem State.memWrite_others (a : Nat) (v : Word) : (s.memWrite a v).others = s.others := rfl
@[simp] theorem State.memWrite_mem (a : Nat) (v : Word) : (s.memWrite a v).mem = Memory.writeWord s.mem a v := rfl
@[simp] theorem State.memWrite_rtc (a : Nat) (v : Word) : (s.memWrite a v).rtc = s.rtc := rfl
@[simp] theorem State.memWrite_clusters (a : Nat) (v : Word) : (s.memWrite a v).clusters = s.clusters := rfl
@[simp] theorem State.memWrite_channels (a : Nat) (v : Word) : (s.memWrite a v).channels = s.channels := rfl
@[simp] theorem State.memWrite_writeLog (a : Nat) (v : Word) :
    (s.memWrite a v).writeLog = (a, s.writeClock) :: s.writeLog.filter fun e => e.1 != a := rfl
@[simp] theorem State.memWrite_writeClock (a : Nat) (v : Word) : (s.memWrite a v).writeClock = s.writeClock + 1 := rfl
@[simp] theorem State.memWrite_draws (a : Nat) (v : Word) : (s.memWrite a v).draws = s.draws := rfl
@[simp] theorem State.memWrite_agenda (a : Nat) (v : Word) : (s.memWrite a v).agenda = s.agenda := rfl
@[simp] theorem State.memWrite_readErrors (a : Nat) (v : Word) : (s.memWrite a v).readErrors = s.readErrors := rfl

/-! ## writeCluster -/

@[simp] theorem State.writeCluster_params (c : Cluster) : (s.writeCluster c).params = s.params := rfl
@[simp] theorem State.writeCluster_cpu (c : Cluster) : (s.writeCluster c).cpu = s.cpu := rfl
@[simp] theorem State.writeCluster_others (c : Cluster) : (s.writeCluster c).others = s.others := rfl
@[simp] theorem State.writeCluster_mem (c : Cluster) : (s.writeCluster c).mem = s.mem := rfl
@[simp] theorem State.writeCluster_rtc (c : Cluster) : (s.writeCluster c).rtc = s.rtc := rfl
@[simp] theorem State.writeCluster_clusters (c : Cluster) :
    (s.writeCluster c).clusters = regPut s.clusters s.cpu.cln c := rfl
@[simp] theorem State.writeCluster_channels (c : Cluster) : (s.writeCluster c).channels = s.channels := rfl
@[simp] theorem State.writeCluster_writeLog (c : Cluster) : (s.writeCluster c).writeLog = s.writeLog := rfl
@[simp] theorem State.writeCluster_writeClock (c : Cluster) : (s.writeCluster c).writeClock = s.writeClock := rfl
@[simp] theorem State.writeCluster_draws (c : Cluster) : (s.writeCluster c).draws = s.draws := rfl
@[simp] theorem State.writeCluster_agenda (c : Cluster) : (s.writeCluster c).agenda = s.agenda := rfl
@[simp] theorem State.writeCluster_readErrors (c : Cluster) : (s.writeCluster c).readErrors = s.readErrors := rfl

/-! ## setChannel -/

@[simp] theorem State.setChannel_params (ch : Addr) (f : Channel → Channel) :
    (s.setChannel ch f).params = s.params := rfl
@[simp] theorem State.setChannel_cpu (ch : Addr) (f : Channel → Channel) : (s.setChannel ch f).cpu = s.cpu := rfl
@[simp] theorem State.setChannel_others (ch : Addr) (f : Channel → Channel) :
    (s.setChannel ch f).others = s.others := rfl
@[simp] theorem State.setChannel_mem (ch : Addr) (f : Channel → Channel) : (s.setChannel ch f).mem = s.mem := rfl
@[simp] theorem State.setChannel_rtc (ch : Addr) (f : Channel → Channel) : (s.setChannel ch f).rtc = s.rtc := rfl
@[simp] theorem State.setChannel_clusters (ch : Addr) (f : Channel → Channel) :
    (s.setChannel ch f).clusters = s.clusters := rfl
@[simp] theorem State.setChannel_channels (ch : Addr) (f : Channel → Channel) :
    (s.setChannel ch f).channels = s.channels.map fun c => if c.num = ch then f c else c := rfl
@[simp] theorem State.setChannel_writeLog (ch : Addr) (f : Channel → Channel) :
    (s.setChannel ch f).writeLog = s.writeLog := rfl
@[simp] theorem State.setChannel_writeClock (ch : Addr) (f : Channel → Channel) :
    (s.setChannel ch f).writeClock = s.writeClock := rfl
@[simp] theorem State.setChannel_draws (ch : Addr) (f : Channel → Channel) :
    (s.setChannel ch f).draws = s.draws := rfl
@[simp] theorem State.setChannel_agenda (ch : Addr) (f : Channel → Channel) :
    (s.setChannel ch f).agenda = s.agenda := rfl
@[simp] theorem State.setChannel_readErrors (ch : Addr) (f : Channel → Channel) :
    (s.setChannel ch f).readErrors = s.readErrors := rfl

/-! ## requestIpi -/

@[simp] theorem State.requestIpi_params (t : Addr) : (s.requestIpi t).params = s.params := rfl
@[simp] theorem State.requestIpi_cpu (t : Addr) : (s.requestIpi t).cpu = s.cpu := rfl
@[simp] theorem State.requestIpi_others (t : Addr) :
    (s.requestIpi t).others = s.others.map fun c => if c.pn.setWidth 32 = t then { c with ipiRequest := true } else c := rfl
@[simp] theorem State.requestIpi_mem (t : Addr) : (s.requestIpi t).mem = s.mem := rfl
@[simp] theorem State.requestIpi_rtc (t : Addr) : (s.requestIpi t).rtc = s.rtc := rfl
@[simp] theorem State.requestIpi_clusters (t : Addr) : (s.requestIpi t).clusters = s.clusters := rfl
@[simp] theorem State.requestIpi_channels (t : Addr) : (s.requestIpi t).channels = s.channels := rfl
@[simp] theorem State.requestIpi_writeLog (t : Addr) : (s.requestIpi t).writeLog = s.writeLog := rfl
@[simp] theorem State.requestIpi_writeClock (t : Addr) : (s.requestIpi t).writeClock = s.writeClock := rfl
@[simp] theorem State.requestIpi_draws (t : Addr) : (s.requestIpi t).draws = s.draws := rfl
@[simp] theorem State.requestIpi_agenda (t : Addr) : (s.requestIpi t).agenda = s.agenda := rfl
@[simp] theorem State.requestIpi_readErrors (t : Addr) : (s.requestIpi t).readErrors = s.readErrors := rfl

/-! ## updateCpu -/

@[simp] theorem State.updateCpu_params (p : BitVec 3) (f : Cpu → Cpu) : (s.updateCpu p f).params = s.params := rfl
@[simp] theorem State.updateCpu_cpu (p : BitVec 3) (f : Cpu → Cpu) :
    (s.updateCpu p f).cpu = if s.cpu.pn = p then f s.cpu else s.cpu := rfl
@[simp] theorem State.updateCpu_others (p : BitVec 3) (f : Cpu → Cpu) :
    (s.updateCpu p f).others = s.others.map fun c => if c.pn = p then f c else c := rfl
@[simp] theorem State.updateCpu_mem (p : BitVec 3) (f : Cpu → Cpu) : (s.updateCpu p f).mem = s.mem := rfl
@[simp] theorem State.updateCpu_rtc (p : BitVec 3) (f : Cpu → Cpu) : (s.updateCpu p f).rtc = s.rtc := rfl
@[simp] theorem State.updateCpu_clusters (p : BitVec 3) (f : Cpu → Cpu) :
    (s.updateCpu p f).clusters = s.clusters := rfl
@[simp] theorem State.updateCpu_channels (p : BitVec 3) (f : Cpu → Cpu) :
    (s.updateCpu p f).channels = s.channels := rfl
@[simp] theorem State.updateCpu_writeLog (p : BitVec 3) (f : Cpu → Cpu) :
    (s.updateCpu p f).writeLog = s.writeLog := rfl
@[simp] theorem State.updateCpu_writeClock (p : BitVec 3) (f : Cpu → Cpu) :
    (s.updateCpu p f).writeClock = s.writeClock := rfl
@[simp] theorem State.updateCpu_draws (p : BitVec 3) (f : Cpu → Cpu) : (s.updateCpu p f).draws = s.draws := rfl
@[simp] theorem State.updateCpu_agenda (p : BitVec 3) (f : Cpu → Cpu) : (s.updateCpu p f).agenda = s.agenda := rfl
@[simp] theorem State.updateCpu_readErrors (p : BitVec 3) (f : Cpu → Cpu) :
    (s.updateCpu p f).readErrors = s.readErrors := rfl

/-! ## placeParcel -/

@[simp] theorem State.placeParcel_params (p : PAddr) (x : Parcel) : (s.placeParcel p x).params = s.params := rfl
@[simp] theorem State.placeParcel_cpu (p : PAddr) (x : Parcel) : (s.placeParcel p x).cpu = s.cpu := rfl
@[simp] theorem State.placeParcel_others (p : PAddr) (x : Parcel) : (s.placeParcel p x).others = s.others := rfl
@[simp] theorem State.placeParcel_mem (p : PAddr) (x : Parcel) :
    (s.placeParcel p x).mem = Memory.writeWord s.mem (s.fetchAddr p)
      (setParcel (Memory.readWord s.mem (s.fetchAddr p)) (parcelNumber p) x) := rfl
@[simp] theorem State.placeParcel_rtc (p : PAddr) (x : Parcel) : (s.placeParcel p x).rtc = s.rtc := rfl
@[simp] theorem State.placeParcel_clusters (p : PAddr) (x : Parcel) : (s.placeParcel p x).clusters = s.clusters := rfl
@[simp] theorem State.placeParcel_channels (p : PAddr) (x : Parcel) : (s.placeParcel p x).channels = s.channels := rfl
@[simp] theorem State.placeParcel_writeLog (p : PAddr) (x : Parcel) : (s.placeParcel p x).writeLog = s.writeLog := rfl
@[simp] theorem State.placeParcel_writeClock (p : PAddr) (x : Parcel) :
    (s.placeParcel p x).writeClock = s.writeClock := rfl
@[simp] theorem State.placeParcel_draws (p : PAddr) (x : Parcel) : (s.placeParcel p x).draws = s.draws := rfl
@[simp] theorem State.placeParcel_agenda (p : PAddr) (x : Parcel) : (s.placeParcel p x).agenda = s.agenda := rfl
@[simp] theorem State.placeParcel_readErrors (p : PAddr) (x : Parcel) :
    (s.placeParcel p x).readErrors = s.readErrors := rfl

end Sys2Proof.Machine
end

