-- ==== Sys2Proof/Laws/Registers.lean ====
section
/-! SUPPORT. The laws of the register files and of the address mask (00_scope.md R13). -/

namespace Sys2Proof.Machine

open Sys2Proof

@[simp] theorem regGet_regPut_same {α : Type} {n : Nat} (v : Vector α (2 ^ n)) (i : BitVec n) (x : α) :
    regGet (regPut v i x) i = x := by simp [regGet, regPut]

theorem regGet_regPut_ne {α : Type} {n : Nat} (v : Vector α (2 ^ n)) (i j : BitVec n) (x : α) (h : j ≠ i) :
    regGet (regPut v i x) j = regGet v j := by
  have h : i.toNat ≠ j.toNat := fun e => h (BitVec.eq_of_toNat_eq e.symm)
  simp [regGet, regPut, Vector.getElem_set_ne _ _ h]

/-- Two register files agree when every register does. -/
theorem regs_ext {α : Type} {n : Nat} (v w : Vector α (2 ^ n)) (h : ∀ i : BitVec n, regGet v i = regGet w i) :
    v = w := by
  ext k hk
  have := h (BitVec.ofNat n k)
  simpa [regGet, BitVec.toNat_ofNat, Nat.mod_eq_of_lt hk] using this

/-- The mask is the remainder modulo 2^AW. -/
theorem amask_toNat (eam : Bool) (v : Addr) : (amask eam v).toNat = v.toNat % 2 ^ addrWidth eam := by
  cases eam
  · simp only [amask, addrWidth, Bool.false_eq_true, if_false, BitVec.toNat_setWidth]
    omega
  · simp only [amask, addrWidth, if_true]
    have := v.isLt
    omega

@[simp] theorem amask_amask (eam : Bool) (v : Addr) : amask eam (amask eam v) = amask eam v := by
  apply BitVec.eq_of_toNat_eq
  simp [amask_toNat]

/-- A masked value is below 2^AW. -/
theorem amask_lt (eam : Bool) (v : Addr) : (amask eam v).toNat < 2 ^ addrWidth eam := by
  rw [amask_toNat]; exact Nat.mod_lt _ (by positivity)

@[simp] theorem readA_writeA_same (s : State) (i : BitVec 3) (v : Addr) :
    (s.writeA i v).readA i = amask s.cpu.m.eam v := by simp [State.readA]

theorem readA_writeA_ne (s : State) (i x : BitVec 3) (v : Addr) (h : x ≠ i) :
    (s.writeA i v).readA x = s.readA x := by simp [State.readA, regGet_regPut_ne _ _ _ _ h]

@[simp] theorem readB_writeB_same (s : State) (n : BitVec 6) (v : Addr) :
    (s.writeB n v).readB n = amask s.cpu.m.eam v := by simp [State.readB]

theorem readB_writeB_ne (s : State) (n x : BitVec 6) (v : Addr) (h : x ≠ n) :
    (s.writeB n v).readB x = s.readB x := by simp [State.readB, regGet_regPut_ne _ _ _ _ h]

@[simp] theorem readS_writeS_same (s : State) (i : BitVec 3) (v : Word) : (s.writeS i v).readS i = v := by
  simp [State.readS]

theorem readS_writeS_ne (s : State) (i x : BitVec 3) (v : Word) (h : x ≠ i) :
    (s.writeS i v).readS x = s.readS x := by simp [State.readS, regGet_regPut_ne _ _ _ _ h]

@[simp] theorem readT_writeT_same (s : State) (n : BitVec 6) (v : Word) : (s.writeT n v).readT n = v := by
  simp [State.readT]

@[simp] theorem readV_writeV_same (s : State) (i : BitVec 3) (x : Vector Word (2 ^ 6)) :
    (s.writeV i x).readV i = x := by simp [State.readV]

theorem readV_writeV_ne (s : State) (i j : BitVec 3) (x : Vector Word (2 ^ 6)) (h : j ≠ i) :
    (s.writeV i x).readV j = s.readV j := by simp [State.readV, regGet_regPut_ne _ _ _ _ h]

/-- An element of a vector given element by element. -/
theorem regGet_ofFn {α : Type} (f : Fin (2 ^ 6) → α) (e : BitVec 6) :
    regGet (Vector.ofFn f) e = f ⟨e.toNat, e.isLt⟩ := by simp [regGet]

/-- An element of a result of the vector frame (41 R205): `f` below VL, kept at and above it. -/
theorem vectorResult_elem (s : State) (i : BitVec 3) (f : BitVec 6 → Word) (e : BitVec 6) :
    regGet (s.vectorResult i f) e = if e.toNat < s.cpu.vl.toNat then f e else s.velem i e := by
  rw [State.vectorResult, regGet_ofFn]
  simp [State.velem, regGet]

/-- Every mode's address width is at most 32. -/
theorem addrWidth_le (eam : Bool) : addrWidth eam ≤ 32 := by cases eam <;> decide

end Sys2Proof.Machine
end

