-- ==== Sys2Proof/Laws/Ops.lean ====
section
/-! SUPPORT. One lemma for each shared operation: everything it can do when it goes on. Proofs about instructions cite
these and do not unfold the operation. -/

namespace Sys2Proof.Machine

open Sys2Proof

/-! ## Outcomes -/

theorem stop_ne_next (e : Stop) (t : State) : e.out ≠ .next t := by cases e <;> simp [Stop.out]

theorem orStop_next {α : Type} {r : Except Stop α} {k : α → Out} {t : State} :
    orStop r k = .next t ↔ ∃ x, r = .ok x ∧ k x = .next t := by
  cases r with
  | ok x => simp [orStop]
  | error e => simp [orStop, stop_ne_next]

theorem done_next {s t : State} {n : Nat} : s.done n = .next t ↔ t = s.advance n := by
  simp [State.done, eq_comm]

theorem shared_next {s t : State} {k : Cluster → Out} :
    s.shared k = .next t ↔ s.cpu.cln ≠ 0 ∧ k s.cluster = .next t := by
  unfold State.shared; split <;> simp_all

theorem monitorOnly_next {s t : State} {k : Out} :
    s.monitorOnly k = .next t ↔ (s.cpu.m.mm = true ∧ k = .next t) ∨ (s.cpu.m.mm = false ∧ t = s.advance 1) := by
  unfold State.monitorOnly; split <;> simp_all [done_next]

theorem withElem_next {s t : State} {k : BitVec 3} {f : BitVec 6 → Out} :
    s.withElem k f = .next t ↔ (s.akVal k).toNat < 64 ∧ f ((s.akVal k).setWidth 6) = .next t := by
  unfold State.withElem; split <;> simp_all

theorem withBlock_next {s t : State} {i : BitVec 3} {jk : BitVec 6} {k : Nat → Out} :
    s.withBlock i jk k = .next t ↔ blockFits jk (s.readA i) = true ∧ k (s.readA i).toNat = .next t := by
  unfold State.withBlock; split <;> simp_all

theorem withDisp22_next {jkm : BitVec 22} {k : Addr → Out} {t : State} :
    withDisp22 jkm k = .next t ↔ jkm.getLsbD 21 = false ∧ k (jkm.setWidth 32) = .next t := by
  unfold withDisp22 disp22
  cases h : jkm.getLsbD 21 <;> simp

theorem withChannel_next {s t : State} {ch : Addr} {k : Channel → Out} :
    s.withChannel ch k = .next t ↔ ∃ c, s.channel ch = some c ∧ k c = .next t := by
  unfold State.withChannel; cases s.channel ch <;> simp

theorem vectorOp_next {s t : State} {i : BitVec 3} {f : BitVec 6 → Word} :
    s.vectorOp i f = .next t ↔
      s.cpu.vl ≠ 0 ∧ t = ((s.writeV i (s.vectorResult i f)).markVector).advance 1 := by
  unfold State.vectorOp; split <;> simp_all [done_next]

theorem vectorFp_next {s t : State} {i : BitVec 3} {f : BitVec 6 → Word × Bool} :
    s.vectorFp i f = .next t ↔
      s.cpu.vl ≠ 0 ∧ t = (((s.writeV i (s.vectorResult i fun e => (f e).1)).markVector).fpError
        (s.anyElem fun e => (f e).2)).advance 1 := by
  unfold State.vectorFp; split <;> simp_all [done_next]

/-! ## Operand references (20_memory.md R86, R98) -/

/-- A reference is made exactly when its absolute address is below the limit, installed, and in no active channel's
range. -/
theorem locate_some {s : State} {ea : Addr} {a : Nat} :
    s.locate ea = .ok (some a) ↔
      a = ea.toNat + s.cpu.dba.toNat ∧ a < s.cpu.dla.toNat ∧ a < s.params.memWords ∧ s.channelBusy a = false := by
  unfold State.locate
  simp only
  repeat' split
  all_goals simp_all
  all_goals try omega
  constructor
  · rintro rfl; simp_all; omega
  · rintro ⟨rfl, -⟩; rfl

/-- A reference is aborted exactly when its absolute address exceeds the limit. -/
theorem locate_none {s : State} {ea : Addr} :
    s.locate ea = .ok none ↔ s.cpu.dla.toNat < ea.toNat + s.cpu.dba.toNat := by
  unfold State.locate
  simp only
  repeat' split
  all_goals simp_all

/-- References are claimed exactly when none is unordered with an earlier one; only `refs` changes. -/
theorem claim_ok {s t : State} {new : List Ref} :
    s.claim new = .ok t ↔
      (new.any fun x => s.cpu.refs.any fun y => s.cpu.unordered y x) = false ∧
        t = s.withCpu { s.cpu with refs := new.foldr addRef s.cpu.refs } := by
  unfold State.claim
  split
  · rename_i h; simp [h]
  · rename_i h; rw [Bool.not_eq_true] at h; simp only [h, true_and, Except.ok.injEq]; exact eq_comm

/-! ## Memory errors of reads (60_exceptions.md R519, R524) -/

@[simp] theorem errorsAt_withCpu (s : State) (c : Cpu) (x : ReadSite) : (s.withCpu c).errorsAt x = s.errorsAt x := rfl

@[simp] theorem errorsAt_drawn (s : State) (n : Nat) (x : ReadSite) : (s.drawn n).errorsAt x = s.errorsAt x := rfl

@[simp] theorem errorsAt_afterReads (s : State) (l : List ReadError) (n : Nat) (x : ReadSite) :
    (s.afterReads l n).errorsAt x = s.errorsAt x := rfl

@[simp] theorem delivered_clean {l : List ReadError} (d w : Word) (h : spoiled l = false) : delivered l d w = w := by
  simp [delivered, h]

theorem spoiled_append (l m : List ReadError) : spoiled (l ++ m) = (spoiled l || spoiled m) := by simp [spoiled]

theorem noteErrors_append (c : Cpu) (l m : List ReadError) : c.noteErrors (l ++ m) = (c.noteErrors l).noteErrors m := by
  simp [Cpu.noteErrors]

/-- Reads without errors change nothing. -/
@[simp] theorem afterReads_nil (s : State) (n : Nat) : s.afterReads [] n = s := rfl

/-- What the errors of reads do to a CPU: nothing but the sticky bits, F.ME and the recorded data. -/
theorem noteErrors_eq (c : Cpu) (l : List ReadError) :
    c.noteErrors l = { c with
      cmeSeen := c.cmeSeen || l.any fun e => e.kind == .correctable
      umeSeen := c.umeSeen || spoiled l
      f := { c.f with me := c.f.me || l.any fun e => c.m.reports e.kind }
      memErr := (c.noteErrors l).memErr } := by
  induction l generalizing c with
  | nil => simp [Cpu.noteErrors, spoiled]
  | cons e rest ih =>
    have h : c.noteErrors (e :: rest) = (c.noteMemError e.kind e.info).noteErrors rest := rfl
    rw [h, ih]
    simp [Cpu.noteMemError, spoiled, Bool.or_assoc]

/-- The recorded data after reads: those of an error that is reported, or the old ones if none is. -/
theorem noteErrors_memErr (c : Cpu) (l : List ReadError) :
    (∃ e ∈ l, c.m.reports e.kind = true ∧ (c.noteErrors l).memErr = some e.info) ∨
      ((∀ e ∈ l, c.m.reports e.kind = false) ∧ (c.noteErrors l).memErr = c.memErr) := by
  induction l generalizing c with
  | nil => exact .inr ⟨by simp, rfl⟩
  | cons e rest ih =>
    have h : c.noteErrors (e :: rest) = (c.noteMemError e.kind e.info).noteErrors rest := rfl
    rw [h]
    rcases ih (c.noteMemError e.kind e.info) with ⟨x, hx, h1, h2⟩ | ⟨h1, h2⟩
    · exact .inl ⟨x, by simp [hx], h1, h2⟩
    · cases hr : c.m.reports e.kind
      · exact .inr ⟨List.forall_mem_cons.mpr ⟨hr, h1⟩, by rw [h2]; simp [Cpu.noteMemError, hr]⟩
      · exact .inl ⟨e, by simp, hr, by rw [h2]; simp [Cpu.noteMemError, hr]⟩

/-- A scalar read goes on in two ways: aborted, with a drawn word, or made, with the errors that accompany it. -/
theorem dataRead_ok {s t : State} {ea : Addr} {w : Word} (h : s.dataRead ea = .ok (w, t)) :
    (s.cpu.dla.toNat < ea.toNat + s.cpu.dba.toNat ∧ w = s.drawAt 0 ∧ t = (s.drawn 1).withCpu s.cpu.raiseOre) ∨
    (∃ refs, let l := s.errorsAt (.operand 0)
      w = delivered l (s.drawAt 0) (Memory.readWord s.mem (ea.toNat + s.cpu.dba.toNat)) ∧
      t = (s.withCpu { s.cpu with refs := refs }).afterReads l 1) := by
  unfold State.dataRead at h
  split at h
  · simp at h
  · rename_i hl
    simp only [Except.ok.injEq, Prod.mk.injEq] at h
    exact .inl ⟨locate_none.mp hl, h.1.symm, h.2.symm⟩
  · rename_i a hl
    have ha := (locate_some.mp hl).1
    split at h
    · simp at h
    · rename_i u hc
      simp only [Except.ok.injEq, Prod.mk.injEq] at h
      obtain ⟨-, rfl⟩ := claim_ok.mp hc
      refine .inr ⟨_, ?_, h.2.symm⟩
      simpa [ha] using h.1.symm

/-- A scalar write goes on in two ways: aborted, writing nothing, or made. -/
theorem dataWrite_ok {s t : State} {ea : Addr} {v : Word} (h : s.dataWrite ea v = .ok t) :
    (s.cpu.dla.toNat < ea.toNat + s.cpu.dba.toNat ∧ t = s.withCpu s.cpu.raiseOre) ∨
    (∃ refs, t = (s.withCpu { s.cpu with refs := refs }).memWrite (ea.toNat + s.cpu.dba.toNat) v) := by
  unfold State.dataWrite at h
  split at h
  · simp at h
  · rename_i hl
    exact .inl ⟨locate_none.mp hl, by simpa [eq_comm] using h⟩
  · rename_i a hl
    have ha := (locate_some.mp hl).1
    split at h
    · simp at h
    · rename_i u hc
      obtain ⟨-, rfl⟩ := claim_ok.mp hc
      exact .inr ⟨_, by simpa [eq_comm, ha] using h⟩

/-- A block read changes `refs`; with an element out of range F.ORE and the count of draws; and what the errors of its
reads change. -/
theorem blockRead_ok {s t : State} {eas : List Addr} {l : List (Option Word)} (h : s.blockRead eas = .ok (l, t)) :
    ∃ refs out n errs m, t = ((s.withCpu { s.cpu with refs := refs }).afterBlock out n).afterReads errs m := by
  unfold State.blockRead at h
  split at h
  · simp at h
  · split at h
    · simp at h
    · rename_i u hc
      obtain ⟨-, rfl⟩ := claim_ok.mp hc
      simp only [Except.ok.injEq, Prod.mk.injEq] at h
      exact ⟨_, _, _, _, _, h.2.symm⟩

/-- A block write changes `refs` and memory, and with an element out of range F.ORE; it may pass over draws. -/
theorem blockWrite_ok {s t : State} {sc : Bool} {eas : List Addr} {vals : List Word}
    (h : s.blockWrite sc eas vals = .ok t) :
    ∃ refs ws out n m, t = (((s.withCpu { s.cpu with refs := refs }).memWrites ws).afterBlock out n).drawn m := by
  unfold State.blockWrite at h
  split at h
  · simp at h
  · split at h
    · simp at h
    · rename_i u hc
      obtain ⟨-, rfl⟩ := claim_ok.mp hc
      simp only [Except.ok.injEq] at h
      split at h
      · exact ⟨_, _, _, _, _, h.symm⟩
      · exact ⟨_, _, _, _, 0, h.symm⟩

/-! ## A list of word writes -/

@[simp] theorem memWrites_cpu (s : State) (l : List (Option (Nat × Word))) : (s.memWrites l).cpu = s.cpu := by
  induction l generalizing s with
  | nil => rfl
  | cons x rest ih =>
    cases x with
    | none => exact ih s
    | some p => simp [State.memWrites, ih]

/-- What a list of word writes leaves alone: everything but memory and the record of writes. -/
theorem memWrites_frame (s : State) (l : List (Option (Nat × Word))) :
    s.memWrites l = { s with mem := (s.memWrites l).mem, writeLog := (s.memWrites l).writeLog,
                             writeClock := (s.memWrites l).writeClock } := by
  induction l generalizing s with
  | nil => rfl
  | cons x rest ih =>
    cases x with
    | none => exact ih s
    | some p =>
      rw [State.memWrites, ih]
      rfl

/-- A word no write names reads as before. -/
theorem memWrites_other (s : State) (l : List (Option (Nat × Word))) (a : Nat)
    (h : ∀ p, some p ∈ l → p.1 ≠ a) : Memory.readWord (s.memWrites l).mem a = Memory.readWord s.mem a := by
  induction l generalizing s with
  | nil => rfl
  | cons x rest ih =>
    cases x with
    | none => exact ih s fun p hp => h p (by simp [hp])
    | some p =>
      rw [State.memWrites, ih _ fun q hq => h q (by simp [hq])]
      exact readWord_writeWord_ne _ _ _ _ (Ne.symm (h p (by simp)))

/-! ## The exchange sequence (60_exceptions.md R531) -/

@[simp] theorem writeImage_cpu (s : State) (a : Nat) (img : PackageImage) (n : Nat) :
    (s.writeImage a img n).cpu = s.cpu := by
  induction n with
  | zero => rfl
  | succ k ih => simp [State.writeImage, ih]

/-- What storing an image leaves alone. -/
theorem writeImage_frame (s : State) (a : Nat) (img : PackageImage) (n : Nat) :
    s.writeImage a img n = { s with mem := (s.writeImage a img n).mem, writeLog := (s.writeImage a img n).writeLog,
                                    writeClock := (s.writeImage a img n).writeClock } := by
  induction n with
  | zero => rfl
  | succ k ih =>
    rw [State.writeImage, ih]
    rfl

/-- The exchange goes on exactly when the package is installed, no channel is at work on it, and it holds an
admissible VL and cluster number; it then swaps. -/
theorem exchange_next {s t : State} :
    s.exchangeSequence = .next t ↔
      s.cpu.packageBase + 15 < s.params.memWords ∧ s.packageBusy = false ∧
      ((readField s.params.xp s.package .vl).setWidth 7 : BitVec 7).toNat ≤ 64 ∧
      ((readField s.params.xp s.package .cln).setWidth 4 : BitVec 4).toNat
        ≤ s.params.ncluster ∧
      t = s.swapped s.package := by
  simp only [State.exchangeSequence]
  generalize s.swapped s.package = u
  split
  · rename_i h; exact ⟨nofun, fun h' => absurd h'.1 (by omega)⟩
  · split
    · rename_i h; exact ⟨nofun, fun h' => by simp [h] at h'⟩
    · split
      · rename_i h; exact ⟨nofun, fun h' => absurd h'.2.2.1 (by omega)⟩
      · split
        · rename_i h; exact ⟨nofun, fun h' => absurd h'.2.2.2.1 (by omega)⟩
        · rename_i h1 h2 h3 h4
          simp only [Host.Outcome.next.injEq]
          exact ⟨fun h => ⟨by omega, by simpa using h2, by omega, by omega, h.symm⟩, fun h => h.2.2.2.2.symm⟩

end Sys2Proof.Machine
end

