-- ==== Sys2Proof/Laws/Frames.lean ====
section
/-! SUPPORT. The frames of Safety.lean for the shapes in which meanings end: what a write of one register, a vector
result or a floating-point result gives. -/

namespace Sys2Proof.Machine

open Sys2Proof

/-- Advancing a state whose P is that of `s`. -/
theorem moved_advance (s t : State) (n : Nat) (h : t.cpu.p = s.cpu.p) : Moved s (t.advance n) n := by
  simp [Moved, State.advance, State.withCpu, h]

theorem givesA_done (s : State) (i : BitVec 3) (v : Addr) (n : Nat) (q : Addr → Prop)
    (h : q (amask s.cpu.m.eam v)) : GivesA ((s.writeA i v).done n) s i n q :=
  ⟨_, rfl, by simpa using h, moved_advance _ _ _ rfl,
    fun r hr => by simp [regGet_regPut_ne _ _ _ _ hr], rfl, fun _ => rfl⟩

theorem givesB_done (s : State) (i : BitVec 6) (v : Addr) (n : Nat) (q : Addr → Prop)
    (h : q (amask s.cpu.m.eam v)) : GivesB ((s.writeB i v).done n) s i n q :=
  ⟨_, rfl, by simpa using h, moved_advance _ _ _ rfl,
    fun r hr => by simp [regGet_regPut_ne _ _ _ _ hr], rfl, fun _ => rfl⟩

theorem givesS_done (s : State) (i : BitVec 3) (v : Word) (n : Nat) (q : Word → Prop) (h : q v) :
    GivesS ((s.writeS i v).done n) s i n q :=
  ⟨_, rfl, by simpa using h, moved_advance _ _ _ rfl,
    fun r hr => by simp [regGet_regPut_ne _ _ _ _ hr], rfl, fun _ => rfl⟩

theorem givesT_done (s : State) (i : BitVec 6) (v : Word) (n : Nat) (q : Word → Prop) (h : q v) :
    GivesT ((s.writeT i v).done n) s i n q :=
  ⟨_, rfl, by simpa using h, moved_advance _ _ _ rfl,
    fun r hr => by simp [regGet_regPut_ne _ _ _ _ hr], rfl, fun _ => rfl⟩

theorem velem_writeV (s t : State) (i : BitVec 3) (x : Vector Word (2^6)) (e) (h : t.cpu.v = regPut s.cpu.v i x) :
    t.velem i e = regGet x e := by simp [State.velem, State.readV, h]

/-- A state whose V file is that of a vector result. -/
theorem vectorIs_result (s t : State) (i : BitVec 3) (f : BitVec 6 → Word) (q : BitVec 6 → Word → Prop)
    (ht : t.cpu.v = regPut s.cpu.v i (s.vectorResult i f))
    (h : ∀ e : BitVec 6, e.toNat < s.cpu.vl.toNat → q e (f e)) : VectorIs s t i q := by
  refine ⟨fun e he => ?_, fun e he => ?_, fun r hr => ?_⟩
  · rw [velem_writeV _ _ _ _ _ ht, vectorResult_elem, if_pos he]; exact h e he
  · rw [velem_writeV _ _ _ _ _ ht, vectorResult_elem, if_neg (by omega)]
  · rw [ht, regGet_regPut_ne _ _ _ _ hr]

theorem givesV_vectorOp (s : State) (i : BitVec 3) (f : BitVec 6 → Word) (q : BitVec 6 → Word → Prop)
    (hv : s.cpu.vl ≠ 0) (h : ∀ e : BitVec 6, e.toNat < s.cpu.vl.toNat → q e (f e)) : GivesV (s.vectorOp i f) s i q :=
  ⟨_, vectorOp_next.mpr ⟨hv, rfl⟩, vectorIs_result _ _ _ f _ rfl h, moved_advance _ _ _ rfl, rfl, fun _ => rfl⟩

/-- A range error as a change of the CPU's fields. -/

theorem fpError_eq (s : State) (b : Bool) :
    s.fpError b = s.withCpu { s.cpu with
      m := { s.cpu.m with fps := s.cpu.m.fps || b }
      f := { s.cpu.f with fpe := s.cpu.f.fpe || (b && (s.cpu.m.ifp && immGate s.cpu.m)) } } := by
  cases b
  · simp [State.fpError, State.withCpu]
  · simp [State.fpError, Cpu.raiseFpe]

theorem reportsRange_of (s t : State) (b : Bool) (p : Prop) (hp : b = true ↔ p)
    (hm : t.cpu.m = { s.cpu.m with fps := s.cpu.m.fps || b })
    (hf : t.cpu.f = { s.cpu.f with fpe := s.cpu.f.fpe || (b && (s.cpu.m.ifp && immGate s.cpu.m)) }) :
    ReportsRange s t p := by
  refine ⟨?_, ?_, ?_, ?_⟩ <;> simp [hm, hf, ← hp, immGate]

theorem givesSFp_of (s : State) (i : BitVec 3) (r : Word × Bool) (n : Nat) (q : Word → Bool → Prop) (h : q r.1 r.2) :
    GivesSFp (((((s.writeS i r.1).fpError r.2).drawn n)).done 1) s i q := by
  rw [fpError_eq]
  exact ⟨_, r.2, rfl, by simpa using h, reportsRange_of _ _ r.2 _ Iff.rfl rfl rfl, moved_advance _ _ _ rfl,
    fun x hx => by simp [regGet_regPut_ne _ _ _ _ hx], rfl, fun _ => rfl⟩

theorem anyElem_iff (s : State) (p : BitVec 6 → Bool) :
    s.anyElem p = true ↔ ∃ e : BitVec 6, e.toNat < s.cpu.vl.toNat ∧ p e = true := by
  simp only [State.anyElem, List.any_eq_true, List.mem_range]
  constructor
  · rintro ⟨e, he, hp⟩
    refine ⟨BitVec.ofNat 6 e, ?_, hp⟩
    rw [BitVec.toNat_ofNat]
    exact lt_of_le_of_lt (Nat.mod_le _ _) he
  · rintro ⟨e, he, hp⟩
    exact ⟨e.toNat, he, by simpa using hp⟩

theorem givesVFp_of (s t : State) (i : BitVec 3) (f : BitVec 6 → Word × Bool) (n : Nat)
    (q : BitVec 6 → Word → Bool → Prop) (h : ∀ e : BitVec 6, e.toNat < s.cpu.vl.toNat → q e (f e).1 (f e).2)
    (ht : t = ((((s.writeV i (s.vectorResult i fun e => (f e).1)).markVector).fpError
      (s.anyElem fun e => (f e).2)).drawn n).advance 1) :
    GivesVFp (.next t) s i q := by
  rw [fpError_eq] at ht
  subst ht
  exact ⟨_, fun e => (f e).2, rfl, vectorIs_result s _ i (fun e => (f e).1) (fun e w => q e w (f e).2) rfl h,
    reportsRange_of _ _ _ _ (anyElem_iff s fun e => (f e).2) rfl rfl, moved_advance _ _ _ rfl, rfl, fun _ => rfl⟩

theorem givesVFp_vectorFp (s : State) (i : BitVec 3) (f : BitVec 6 → Word × Bool) (q : BitVec 6 → Word → Bool → Prop)
    (hv : s.cpu.vl ≠ 0) (h : ∀ e : BitVec 6, e.toNat < s.cpu.vl.toNat → q e (f e).1 (f e).2) :
    GivesVFp (s.vectorFp i f) s i q := by
  rw [vectorFp_next.mpr ⟨hv, rfl⟩]
  exact givesVFp_of s _ i f 0 q h rfl

theorem givesVFp_vectorMul (s : State) (i : BitVec 3) (a b : BitVec 6 → Word) (q : BitVec 6 → Word → Bool → Prop)
    (hv : s.cpu.vl ≠ 0) (h : ∀ (e : BitVec 6) (d : Word), q e (mulWord (a e) (b e) d).1 (mulWord (a e) (b e) d).2) :
    GivesVFp (s.vectorMul i a b) s i q := by
  unfold State.vectorMul
  rw [if_neg hv]
  simp only [State.drawnIf]
  split
  · exact givesVFp_of s _ i (fun e => mulWord (a e) (b e) (s.drawAt e.toNat)) _ q (fun e _ => h e _) rfl
  · exact givesVFp_of s _ i (fun e => mulWord (a e) (b e) (s.drawAt e.toNat)) 0 q (fun e _ => h e _) rfl

end Sys2Proof.Machine
end

