-- ==== Sys2Proof/Laws/PerInstr.lean ====
section
/-! SUPPORT. The per-instruction family EncodedLength: an instruction's encoding has its length in parcels, and the
length that the first parcel tells (30_encoding.md R125), in a mode in which the instruction exists, is that length. -/

namespace Sys2Proof.Laws

-- Hundreds of small theorems in a row: one at a time, since each elaborated on a thread of its own takes a stack.
set_option Elab.async false

open Sys2Proof

/-- The encoding has the instruction's length, and its first parcel tells it in the instruction's modes. -/
def EncodedLength.Statement (i : Instr) : Prop :=
  (encode i).length = i.length ∧ ∀ eam : Bool, i.inMode eam = true → instrLength ((encode i).headD 0) eam = i.length

theorem EncodedLength.aImm24 (h : BitVec 3) (exp : BitVec 24) : EncodedLength.Statement (.aImm24 h exp) :=
  ⟨rfl, fun eam he => by
    cases eam <;> simp [Instr.inMode, Instr.modes] at he ⊢
    simp [encode, encAddr24, instrLength, Instr.length]⟩

theorem EncodedLength.aImm22 (i : BitVec 3) (jkm : BitVec 22) : EncodedLength.Statement (.aImm22 i jkm) :=
  ⟨rfl, fun eam he => by
    cases eam <;> simp [Instr.inMode, Instr.modes] at he ⊢
    simp [encode, encJkm, instrLength, Instr.length]⟩

theorem EncodedLength.aImm22c (i : BitVec 3) (jkm : BitVec 22) : EncodedLength.Statement (.aImm22c i jkm) :=
  ⟨rfl, fun eam he => by
    cases eam <;> simp [Instr.inMode, Instr.modes] at he ⊢
    simp [encode, encJkm, instrLength, Instr.length]⟩

theorem EncodedLength.aImm32 (i : BitVec 3) (nm : BitVec 32) : EncodedLength.Statement (.aImm32 i nm) :=
  ⟨rfl, fun eam he => by
    cases eam <;> simp [Instr.inMode, Instr.modes] at he ⊢
    simp [encode, encNm, instrLength, Instr.length]⟩

theorem EncodedLength.aImm32c (i : BitVec 3) (nm : BitVec 32) : EncodedLength.Statement (.aImm32c i nm) :=
  ⟨rfl, fun eam he => by
    cases eam <;> simp [Instr.inMode, Instr.modes] at he ⊢
    simp [encode, encNm, instrLength, Instr.length]⟩

theorem EncodedLength.aImm6 (i : BitVec 3) (jk : BitVec 6) : EncodedLength.Statement (.aImm6 i jk) :=
  ⟨rfl, fun eam _ => by cases eam <;> simp [encode, encJk, instrLength, Instr.length]⟩

theorem EncodedLength.sImm22 (i : BitVec 3) (jkm : BitVec 22) : EncodedLength.Statement (.sImm22 i jkm) :=
  ⟨rfl, fun eam he => by
    cases eam <;> simp [Instr.inMode, Instr.modes] at he ⊢
    simp [encode, encJkm, instrLength, Instr.length]⟩

theorem EncodedLength.sImm22c (i : BitVec 3) (jkm : BitVec 22) : EncodedLength.Statement (.sImm22c i jkm) :=
  ⟨rfl, fun eam he => by
    cases eam <;> simp [Instr.inMode, Instr.modes] at he ⊢
    simp [encode, encJkm, instrLength, Instr.length]⟩

theorem EncodedLength.sImm32 (i : BitVec 3) (nm : BitVec 32) : EncodedLength.Statement (.sImm32 i nm) :=
  ⟨rfl, fun eam he => by
    cases eam <;> simp [Instr.inMode, Instr.modes] at he ⊢
    simp [encode, encNm, instrLength, Instr.length]⟩

theorem EncodedLength.sImm32c (i : BitVec 3) (nm : BitVec 32) : EncodedLength.Statement (.sImm32c i nm) :=
  ⟨rfl, fun eam he => by
    cases eam <;> simp [Instr.inMode, Instr.modes] at he ⊢
    simp [encode, encNm, instrLength, Instr.length]⟩

theorem EncodedLength.sMaskr (i : BitVec 3) (jk : BitVec 6) : EncodedLength.Statement (.sMaskr i jk) :=
  ⟨rfl, fun eam _ => by cases eam <;> simp [encode, encJk, instrLength, Instr.length]⟩

theorem EncodedLength.sMaskl (i : BitVec 3) (jk : BitVec 6) : EncodedLength.Statement (.sMaskl i jk) :=
  ⟨rfl, fun eam _ => by cases eam <;> simp [encode, encJk, instrLength, Instr.length]⟩

theorem EncodedLength.sFc06 (i : BitVec 3) : EncodedLength.Statement (.sFc06 i) :=
  ⟨rfl, fun eam _ => by cases eam <;> simp [encode, enc1, instrLength, Instr.length]⟩

theorem EncodedLength.sFc04 (i : BitVec 3) : EncodedLength.Statement (.sFc04 i) :=
  ⟨rfl, fun eam _ => by cases eam <;> simp [encode, enc1, instrLength, Instr.length]⟩

theorem EncodedLength.sFc1 (i : BitVec 3) : EncodedLength.Statement (.sFc1 i) :=
  ⟨rfl, fun eam _ => by cases eam <;> simp [encode, enc1, instrLength, Instr.length]⟩

theorem EncodedLength.sFc2 (i : BitVec 3) : EncodedLength.Statement (.sFc2 i) :=
  ⟨rfl, fun eam _ => by cases eam <;> simp [encode, enc1, instrLength, Instr.length]⟩

theorem EncodedLength.sFc4 (i : BitVec 3) : EncodedLength.Statement (.sFc4 i) :=
  ⟨rfl, fun eam _ => by cases eam <;> simp [encode, enc1, instrLength, Instr.length]⟩

theorem EncodedLength.aFromS (i : BitVec 3) (j : BitVec 3) : EncodedLength.Statement (.aFromS i j) :=
  ⟨rfl, fun eam _ => by cases eam <;> simp [encode, enc1, instrLength, Instr.length]⟩

theorem EncodedLength.aFromVl (i : BitVec 3) : EncodedLength.Statement (.aFromVl i) :=
  ⟨rfl, fun eam _ => by cases eam <;> simp [encode, enc1, instrLength, Instr.length]⟩

theorem EncodedLength.aFromB (i : BitVec 3) (jk : BitVec 6) : EncodedLength.Statement (.aFromB i jk) :=
  ⟨rfl, fun eam _ => by cases eam <;> simp [encode, encJk, instrLength, Instr.length]⟩

theorem EncodedLength.bFromA (i : BitVec 3) (jk : BitVec 6) : EncodedLength.Statement (.bFromA i jk) :=
  ⟨rfl, fun eam _ => by cases eam <;> simp [encode, encJk, instrLength, Instr.length]⟩

theorem EncodedLength.aFromSb (i : BitVec 3) (j : BitVec 3) : EncodedLength.Statement (.aFromSb i j) :=
  ⟨rfl, fun eam _ => by cases eam <;> simp [encode, enc1, instrLength, Instr.length]⟩

theorem EncodedLength.sbFromA (i : BitVec 3) (j : BitVec 3) : EncodedLength.Statement (.sbFromA i j) :=
  ⟨rfl, fun eam _ => by cases eam <;> simp [encode, enc1, instrLength, Instr.length]⟩

theorem EncodedLength.sFromA (i : BitVec 3) (k : BitVec 3) : EncodedLength.Statement (.sFromA i k) :=
  ⟨rfl, fun eam _ => by cases eam <;> simp [encode, enc1, instrLength, Instr.length]⟩

theorem EncodedLength.sFromASx (i : BitVec 3) (k : BitVec 3) : EncodedLength.Statement (.sFromASx i k) :=
  ⟨rfl, fun eam _ => by cases eam <;> simp [encode, enc1, instrLength, Instr.length]⟩

theorem EncodedLength.sFromAFlt (i : BitVec 3) (k : BitVec 3) : EncodedLength.Statement (.sFromAFlt i k) :=
  ⟨rfl, fun eam _ => by cases eam <;> simp [encode, enc1, instrLength, Instr.length]⟩

theorem EncodedLength.sFromRtc (i : BitVec 3) : EncodedLength.Statement (.sFromRtc i) :=
  ⟨rfl, fun eam _ => by cases eam <;> simp [encode, enc1, instrLength, Instr.length]⟩

theorem EncodedLength.sFromSm (i : BitVec 3) : EncodedLength.Statement (.sFromSm i) :=
  ⟨rfl, fun eam _ => by cases eam <;> simp [encode, enc1, instrLength, Instr.length]⟩

theorem EncodedLength.sFromSt (i : BitVec 3) (j : BitVec 3) : EncodedLength.Statement (.sFromSt i j) :=
  ⟨rfl, fun eam _ => by cases eam <;> simp [encode, enc1, instrLength, Instr.length]⟩

theorem EncodedLength.sFromVm (i : BitVec 3) : EncodedLength.Statement (.sFromVm i) :=
  ⟨rfl, fun eam _ => by cases eam <;> simp [encode, enc1, instrLength, Instr.length]⟩

theorem EncodedLength.sFromSr (i : BitVec 3) : EncodedLength.Statement (.sFromSr i) :=
  ⟨rfl, fun eam _ => by cases eam <;> simp [encode, enc1, instrLength, Instr.length]⟩

theorem EncodedLength.smFromS (i : BitVec 3) : EncodedLength.Statement (.smFromS i) :=
  ⟨rfl, fun eam _ => by cases eam <;> simp [encode, enc1, instrLength, Instr.length]⟩

theorem EncodedLength.stFromS (i : BitVec 3) (j : BitVec 3) : EncodedLength.Statement (.stFromS i j) :=
  ⟨rfl, fun eam _ => by cases eam <;> simp [encode, enc1, instrLength, Instr.length]⟩

theorem EncodedLength.sFromT (i : BitVec 3) (jk : BitVec 6) : EncodedLength.Statement (.sFromT i jk) :=
  ⟨rfl, fun eam _ => by cases eam <;> simp [encode, encJk, instrLength, Instr.length]⟩

theorem EncodedLength.tFromS (i : BitVec 3) (jk : BitVec 6) : EncodedLength.Statement (.tFromS i jk) :=
  ⟨rfl, fun eam _ => by cases eam <;> simp [encode, encJk, instrLength, Instr.length]⟩

theorem EncodedLength.sFromVelem (i : BitVec 3) (j : BitVec 3) (k : BitVec 3) : EncodedLength.Statement (.sFromVelem i j k) :=
  ⟨rfl, fun eam _ => by cases eam <;> simp [encode, enc1, instrLength, Instr.length]⟩

theorem EncodedLength.velemFromS (i : BitVec 3) (j : BitVec 3) (k : BitVec 3) : EncodedLength.Statement (.velemFromS i j k) :=
  ⟨rfl, fun eam _ => by cases eam <;> simp [encode, enc1, instrLength, Instr.length]⟩

theorem EncodedLength.vmFromS (j : BitVec 3) : EncodedLength.Statement (.vmFromS j) :=
  ⟨rfl, fun eam _ => by cases eam <;> simp [encode, enc1, instrLength, Instr.length]⟩

theorem EncodedLength.vlFromA (k : BitVec 3) : EncodedLength.Statement (.vlFromA k) :=
  ⟨rfl, fun eam _ => by cases eam <;> simp [encode, enc1, instrLength, Instr.length]⟩

theorem EncodedLength.smTs (jk : BitVec 6) : EncodedLength.Statement (.smTs jk) :=
  ⟨rfl, fun eam _ => by cases eam <;> simp [encode, encJk, instrLength, Instr.length]⟩

theorem EncodedLength.smClr (jk : BitVec 6) : EncodedLength.Statement (.smClr jk) :=
  ⟨rfl, fun eam _ => by cases eam <;> simp [encode, encJk, instrLength, Instr.length]⟩

theorem EncodedLength.smSet (jk : BitVec 6) : EncodedLength.Statement (.smSet jk) :=
  ⟨rfl, fun eam _ => by cases eam <;> simp [encode, encJk, instrLength, Instr.length]⟩

theorem EncodedLength.dbm : EncodedLength.Statement .dbm :=
  ⟨rfl, fun eam _ => by cases eam <;> simp [encode, enc1, instrLength, Instr.length]⟩

theorem EncodedLength.ebm : EncodedLength.Statement .ebm :=
  ⟨rfl, fun eam _ => by cases eam <;> simp [encode, enc1, instrLength, Instr.length]⟩

theorem EncodedLength.dcbw : EncodedLength.Statement .dcbw :=
  ⟨rfl, fun eam _ => by cases eam <;> simp [encode, enc1, instrLength, Instr.length]⟩

theorem EncodedLength.ecbw : EncodedLength.Statement .ecbw :=
  ⟨rfl, fun eam _ => by cases eam <;> simp [encode, enc1, instrLength, Instr.length]⟩

theorem EncodedLength.dsbo : EncodedLength.Statement .dsbo :=
  ⟨rfl, fun eam _ => by cases eam <;> simp [encode, enc1, instrLength, Instr.length]⟩

theorem EncodedLength.esbo : EncodedLength.Statement .esbo :=
  ⟨rfl, fun eam _ => by cases eam <;> simp [encode, enc1, instrLength, Instr.length]⟩

theorem EncodedLength.cmr : EncodedLength.Statement .cmr :=
  ⟨rfl, fun eam _ => by cases eam <;> simp [encode, enc1, instrLength, Instr.length]⟩

theorem EncodedLength.ldAX (h : BitVec 3) (i : BitVec 3) (jkm : BitVec 22) : EncodedLength.Statement (.ldAX h i jkm) :=
  ⟨rfl, fun eam he => by
    cases eam <;> simp [Instr.inMode, Instr.modes] at he ⊢
    simp [encode, encJkm, instrLength, Instr.length]⟩

theorem EncodedLength.ldAY (h : BitVec 3) (i : BitVec 3) (nm : BitVec 32) : EncodedLength.Statement (.ldAY h i nm) :=
  ⟨rfl, fun eam he => by
    cases eam <;> simp [Instr.inMode, Instr.modes] at he ⊢
    simp [encode, encNm, instrLength, Instr.length]⟩

theorem EncodedLength.stAX (h : BitVec 3) (i : BitVec 3) (jkm : BitVec 22) : EncodedLength.Statement (.stAX h i jkm) :=
  ⟨rfl, fun eam he => by
    cases eam <;> simp [Instr.inMode, Instr.modes] at he ⊢
    simp [encode, encJkm, instrLength, Instr.length]⟩

theorem EncodedLength.stAY (h : BitVec 3) (i : BitVec 3) (nm : BitVec 32) : EncodedLength.Statement (.stAY h i nm) :=
  ⟨rfl, fun eam he => by
    cases eam <;> simp [Instr.inMode, Instr.modes] at he ⊢
    simp [encode, encNm, instrLength, Instr.length]⟩

theorem EncodedLength.ldSX (h : BitVec 3) (i : BitVec 3) (jkm : BitVec 22) : EncodedLength.Statement (.ldSX h i jkm) :=
  ⟨rfl, fun eam he => by
    cases eam <;> simp [Instr.inMode, Instr.modes] at he ⊢
    simp [encode, encJkm, instrLength, Instr.length]⟩

theorem EncodedLength.ldSY (h : BitVec 3) (i : BitVec 3) (nm : BitVec 32) : EncodedLength.Statement (.ldSY h i nm) :=
  ⟨rfl, fun eam he => by
    cases eam <;> simp [Instr.inMode, Instr.modes] at he ⊢
    simp [encode, encNm, instrLength, Instr.length]⟩

theorem EncodedLength.stSX (h : BitVec 3) (i : BitVec 3) (jkm : BitVec 22) : EncodedLength.Statement (.stSX h i jkm) :=
  ⟨rfl, fun eam he => by
    cases eam <;> simp [Instr.inMode, Instr.modes] at he ⊢
    simp [encode, encJkm, instrLength, Instr.length]⟩

theorem EncodedLength.stSY (h : BitVec 3) (i : BitVec 3) (nm : BitVec 32) : EncodedLength.Statement (.stSY h i nm) :=
  ⟨rfl, fun eam he => by
    cases eam <;> simp [Instr.inMode, Instr.modes] at he ⊢
    simp [encode, encNm, instrLength, Instr.length]⟩

theorem EncodedLength.ldBBlk (i : BitVec 3) (jk : BitVec 6) : EncodedLength.Statement (.ldBBlk i jk) :=
  ⟨rfl, fun eam _ => by cases eam <;> simp [encode, encJk, instrLength, Instr.length]⟩

theorem EncodedLength.stBBlk (i : BitVec 3) (jk : BitVec 6) : EncodedLength.Statement (.stBBlk i jk) :=
  ⟨rfl, fun eam _ => by cases eam <;> simp [encode, encJk, instrLength, Instr.length]⟩

theorem EncodedLength.ldTBlk (i : BitVec 3) (jk : BitVec 6) : EncodedLength.Statement (.ldTBlk i jk) :=
  ⟨rfl, fun eam _ => by cases eam <;> simp [encode, encJk, instrLength, Instr.length]⟩

theorem EncodedLength.stTBlk (i : BitVec 3) (jk : BitVec 6) : EncodedLength.Statement (.stTBlk i jk) :=
  ⟨rfl, fun eam _ => by cases eam <;> simp [encode, encJk, instrLength, Instr.length]⟩

theorem EncodedLength.ldV (i : BitVec 3) (k : BitVec 3) : EncodedLength.Statement (.ldV i k) :=
  ⟨rfl, fun eam _ => by cases eam <;> simp [encode, enc1, instrLength, Instr.length]⟩

theorem EncodedLength.ldVGather (i : BitVec 3) (k : BitVec 3) : EncodedLength.Statement (.ldVGather i k) :=
  ⟨rfl, fun eam _ => by cases eam <;> simp [encode, enc1, instrLength, Instr.length]⟩

theorem EncodedLength.stV (j : BitVec 3) (k : BitVec 3) : EncodedLength.Statement (.stV j k) :=
  ⟨rfl, fun eam _ => by cases eam <;> simp [encode, enc1, instrLength, Instr.length]⟩

theorem EncodedLength.stVScatter (j : BitVec 3) (k : BitVec 3) : EncodedLength.Statement (.stVScatter j k) :=
  ⟨rfl, fun eam _ => by cases eam <;> simp [encode, enc1, instrLength, Instr.length]⟩

theorem EncodedLength.aAdd (i : BitVec 3) (j : BitVec 3) (k : BitVec 3) : EncodedLength.Statement (.aAdd i j k) :=
  ⟨rfl, fun eam _ => by cases eam <;> simp [encode, enc1, instrLength, Instr.length]⟩

theorem EncodedLength.aSub (i : BitVec 3) (j : BitVec 3) (k : BitVec 3) : EncodedLength.Statement (.aSub i j k) :=
  ⟨rfl, fun eam _ => by cases eam <;> simp [encode, enc1, instrLength, Instr.length]⟩

theorem EncodedLength.aMul (i : BitVec 3) (j : BitVec 3) (k : BitVec 3) : EncodedLength.Statement (.aMul i j k) :=
  ⟨rfl, fun eam _ => by cases eam <;> simp [encode, enc1, instrLength, Instr.length]⟩

theorem EncodedLength.sAdd (i : BitVec 3) (j : BitVec 3) (k : BitVec 3) : EncodedLength.Statement (.sAdd i j k) :=
  ⟨rfl, fun eam _ => by cases eam <;> simp [encode, enc1, instrLength, Instr.length]⟩

theorem EncodedLength.sSub (i : BitVec 3) (j : BitVec 3) (k : BitVec 3) : EncodedLength.Statement (.sSub i j k) :=
  ⟨rfl, fun eam _ => by cases eam <;> simp [encode, enc1, instrLength, Instr.length]⟩

theorem EncodedLength.vAddSv (i : BitVec 3) (j : BitVec 3) (k : BitVec 3) : EncodedLength.Statement (.vAddSv i j k) :=
  ⟨rfl, fun eam _ => by cases eam <;> simp [encode, enc1, instrLength, Instr.length]⟩

theorem EncodedLength.vAddVv (i : BitVec 3) (j : BitVec 3) (k : BitVec 3) : EncodedLength.Statement (.vAddVv i j k) :=
  ⟨rfl, fun eam _ => by cases eam <;> simp [encode, enc1, instrLength, Instr.length]⟩

theorem EncodedLength.vSubSv (i : BitVec 3) (j : BitVec 3) (k : BitVec 3) : EncodedLength.Statement (.vSubSv i j k) :=
  ⟨rfl, fun eam _ => by cases eam <;> simp [encode, enc1, instrLength, Instr.length]⟩

theorem EncodedLength.vSubVv (i : BitVec 3) (j : BitVec 3) (k : BitVec 3) : EncodedLength.Statement (.vSubVv i j k) :=
  ⟨rfl, fun eam _ => by cases eam <;> simp [encode, enc1, instrLength, Instr.length]⟩

theorem EncodedLength.efi : EncodedLength.Statement .efi :=
  ⟨rfl, fun eam _ => by cases eam <;> simp [encode, enc1, instrLength, Instr.length]⟩

theorem EncodedLength.dfi : EncodedLength.Statement .dfi :=
  ⟨rfl, fun eam _ => by cases eam <;> simp [encode, enc1, instrLength, Instr.length]⟩

theorem EncodedLength.sFadd (i : BitVec 3) (j : BitVec 3) (k : BitVec 3) : EncodedLength.Statement (.sFadd i j k) :=
  ⟨rfl, fun eam _ => by cases eam <;> simp [encode, enc1, instrLength, Instr.length]⟩

theorem EncodedLength.sFsub (i : BitVec 3) (j : BitVec 3) (k : BitVec 3) : EncodedLength.Statement (.sFsub i j k) :=
  ⟨rfl, fun eam _ => by cases eam <;> simp [encode, enc1, instrLength, Instr.length]⟩

theorem EncodedLength.vFaddSv (i : BitVec 3) (j : BitVec 3) (k : BitVec 3) : EncodedLength.Statement (.vFaddSv i j k) :=
  ⟨rfl, fun eam _ => by cases eam <;> simp [encode, enc1, instrLength, Instr.length]⟩

theorem EncodedLength.vFaddVv (i : BitVec 3) (j : BitVec 3) (k : BitVec 3) : EncodedLength.Statement (.vFaddVv i j k) :=
  ⟨rfl, fun eam _ => by cases eam <;> simp [encode, enc1, instrLength, Instr.length]⟩

theorem EncodedLength.vFsubSv (i : BitVec 3) (j : BitVec 3) (k : BitVec 3) : EncodedLength.Statement (.vFsubSv i j k) :=
  ⟨rfl, fun eam _ => by cases eam <;> simp [encode, enc1, instrLength, Instr.length]⟩

theorem EncodedLength.vFsubVv (i : BitVec 3) (j : BitVec 3) (k : BitVec 3) : EncodedLength.Statement (.vFsubVv i j k) :=
  ⟨rfl, fun eam _ => by cases eam <;> simp [encode, enc1, instrLength, Instr.length]⟩

theorem EncodedLength.sFmul (i : BitVec 3) (j : BitVec 3) (k : BitVec 3) : EncodedLength.Statement (.sFmul i j k) :=
  ⟨rfl, fun eam _ => by cases eam <;> simp [encode, enc1, instrLength, Instr.length]⟩

theorem EncodedLength.sFmulH (i : BitVec 3) (j : BitVec 3) (k : BitVec 3) : EncodedLength.Statement (.sFmulH i j k) :=
  ⟨rfl, fun eam _ => by cases eam <;> simp [encode, enc1, instrLength, Instr.length]⟩

theorem EncodedLength.sFmulR (i : BitVec 3) (j : BitVec 3) (k : BitVec 3) : EncodedLength.Statement (.sFmulR i j k) :=
  ⟨rfl, fun eam _ => by cases eam <;> simp [encode, enc1, instrLength, Instr.length]⟩

theorem EncodedLength.vFmulSv (i : BitVec 3) (j : BitVec 3) (k : BitVec 3) : EncodedLength.Statement (.vFmulSv i j k) :=
  ⟨rfl, fun eam _ => by cases eam <;> simp [encode, enc1, instrLength, Instr.length]⟩

theorem EncodedLength.vFmulVv (i : BitVec 3) (j : BitVec 3) (k : BitVec 3) : EncodedLength.Statement (.vFmulVv i j k) :=
  ⟨rfl, fun eam _ => by cases eam <;> simp [encode, enc1, instrLength, Instr.length]⟩

theorem EncodedLength.vFmulHSv (i : BitVec 3) (j : BitVec 3) (k : BitVec 3) : EncodedLength.Statement (.vFmulHSv i j k) :=
  ⟨rfl, fun eam _ => by cases eam <;> simp [encode, enc1, instrLength, Instr.length]⟩

theorem EncodedLength.vFmulHVv (i : BitVec 3) (j : BitVec 3) (k : BitVec 3) : EncodedLength.Statement (.vFmulHVv i j k) :=
  ⟨rfl, fun eam _ => by cases eam <;> simp [encode, enc1, instrLength, Instr.length]⟩

theorem EncodedLength.vFmulRSv (i : BitVec 3) (j : BitVec 3) (k : BitVec 3) : EncodedLength.Statement (.vFmulRSv i j k) :=
  ⟨rfl, fun eam _ => by cases eam <;> simp [encode, enc1, instrLength, Instr.length]⟩

theorem EncodedLength.vFmulRVv (i : BitVec 3) (j : BitVec 3) (k : BitVec 3) : EncodedLength.Statement (.vFmulRVv i j k) :=
  ⟨rfl, fun eam _ => by cases eam <;> simp [encode, enc1, instrLength, Instr.length]⟩

theorem EncodedLength.sFiter (i : BitVec 3) (j : BitVec 3) (k : BitVec 3) : EncodedLength.Statement (.sFiter i j k) :=
  ⟨rfl, fun eam _ => by cases eam <;> simp [encode, enc1, instrLength, Instr.length]⟩

theorem EncodedLength.sFrecip (i : BitVec 3) (j : BitVec 3) : EncodedLength.Statement (.sFrecip i j) :=
  ⟨rfl, fun eam _ => by cases eam <;> simp [encode, enc1, instrLength, Instr.length]⟩

theorem EncodedLength.vFrecip (i : BitVec 3) (j : BitVec 3) : EncodedLength.Statement (.vFrecip i j) :=
  ⟨rfl, fun eam _ => by cases eam <;> simp [encode, enc1, instrLength, Instr.length]⟩

theorem EncodedLength.vFiterSv (i : BitVec 3) (j : BitVec 3) (k : BitVec 3) : EncodedLength.Statement (.vFiterSv i j k) :=
  ⟨rfl, fun eam _ => by cases eam <;> simp [encode, enc1, instrLength, Instr.length]⟩

theorem EncodedLength.vImul32 (i : BitVec 3) (j : BitVec 3) (k : BitVec 3) : EncodedLength.Statement (.vImul32 i j k) :=
  ⟨rfl, fun eam _ => by cases eam <;> simp [encode, enc1, instrLength, Instr.length]⟩

theorem EncodedLength.vFiterVv (i : BitVec 3) (j : BitVec 3) (k : BitVec 3) : EncodedLength.Statement (.vFiterVv i j k) :=
  ⟨rfl, fun eam _ => by cases eam <;> simp [encode, enc1, instrLength, Instr.length]⟩

theorem EncodedLength.sAnd (i : BitVec 3) (j : BitVec 3) (k : BitVec 3) : EncodedLength.Statement (.sAnd i j k) :=
  ⟨rfl, fun eam _ => by cases eam <;> simp [encode, enc1, instrLength, Instr.length]⟩

theorem EncodedLength.sAndn (i : BitVec 3) (j : BitVec 3) (k : BitVec 3) : EncodedLength.Statement (.sAndn i j k) :=
  ⟨rfl, fun eam _ => by cases eam <;> simp [encode, enc1, instrLength, Instr.length]⟩

theorem EncodedLength.sXor (i : BitVec 3) (j : BitVec 3) (k : BitVec 3) : EncodedLength.Statement (.sXor i j k) :=
  ⟨rfl, fun eam _ => by cases eam <;> simp [encode, enc1, instrLength, Instr.length]⟩

theorem EncodedLength.sXnor (i : BitVec 3) (j : BitVec 3) (k : BitVec 3) : EncodedLength.Statement (.sXnor i j k) :=
  ⟨rfl, fun eam _ => by cases eam <;> simp [encode, enc1, instrLength, Instr.length]⟩

theorem EncodedLength.sMerge (i : BitVec 3) (j : BitVec 3) (k : BitVec 3) : EncodedLength.Statement (.sMerge i j k) :=
  ⟨rfl, fun eam _ => by cases eam <;> simp [encode, enc1, instrLength, Instr.length]⟩

theorem EncodedLength.sOr (i : BitVec 3) (j : BitVec 3) (k : BitVec 3) : EncodedLength.Statement (.sOr i j k) :=
  ⟨rfl, fun eam _ => by cases eam <;> simp [encode, enc1, instrLength, Instr.length]⟩

theorem EncodedLength.vAndSv (i : BitVec 3) (j : BitVec 3) (k : BitVec 3) : EncodedLength.Statement (.vAndSv i j k) :=
  ⟨rfl, fun eam _ => by cases eam <;> simp [encode, enc1, instrLength, Instr.length]⟩

theorem EncodedLength.vAndVv (i : BitVec 3) (j : BitVec 3) (k : BitVec 3) : EncodedLength.Statement (.vAndVv i j k) :=
  ⟨rfl, fun eam _ => by cases eam <;> simp [encode, enc1, instrLength, Instr.length]⟩

theorem EncodedLength.vOrSv (i : BitVec 3) (j : BitVec 3) (k : BitVec 3) : EncodedLength.Statement (.vOrSv i j k) :=
  ⟨rfl, fun eam _ => by cases eam <;> simp [encode, enc1, instrLength, Instr.length]⟩

theorem EncodedLength.vOrVv (i : BitVec 3) (j : BitVec 3) (k : BitVec 3) : EncodedLength.Statement (.vOrVv i j k) :=
  ⟨rfl, fun eam _ => by cases eam <;> simp [encode, enc1, instrLength, Instr.length]⟩

theorem EncodedLength.vXorSv (i : BitVec 3) (j : BitVec 3) (k : BitVec 3) : EncodedLength.Statement (.vXorSv i j k) :=
  ⟨rfl, fun eam _ => by cases eam <;> simp [encode, enc1, instrLength, Instr.length]⟩

theorem EncodedLength.vXorVv (i : BitVec 3) (j : BitVec 3) (k : BitVec 3) : EncodedLength.Statement (.vXorVv i j k) :=
  ⟨rfl, fun eam _ => by cases eam <;> simp [encode, enc1, instrLength, Instr.length]⟩

theorem EncodedLength.vMergeSv (i : BitVec 3) (j : BitVec 3) (k : BitVec 3) : EncodedLength.Statement (.vMergeSv i j k) :=
  ⟨rfl, fun eam _ => by cases eam <;> simp [encode, enc1, instrLength, Instr.length]⟩

theorem EncodedLength.vMergeVv (i : BitVec 3) (j : BitVec 3) (k : BitVec 3) : EncodedLength.Statement (.vMergeVv i j k) :=
  ⟨rfl, fun eam _ => by cases eam <;> simp [encode, enc1, instrLength, Instr.length]⟩

theorem EncodedLength.vmTestZ (j : BitVec 3) : EncodedLength.Statement (.vmTestZ j) :=
  ⟨rfl, fun eam _ => by cases eam <;> simp [encode, enc1, instrLength, Instr.length]⟩

theorem EncodedLength.vmTestN (j : BitVec 3) : EncodedLength.Statement (.vmTestN j) :=
  ⟨rfl, fun eam _ => by cases eam <;> simp [encode, enc1, instrLength, Instr.length]⟩

theorem EncodedLength.vmTestP (j : BitVec 3) : EncodedLength.Statement (.vmTestP j) :=
  ⟨rfl, fun eam _ => by cases eam <;> simp [encode, enc1, instrLength, Instr.length]⟩

theorem EncodedLength.vmTestM (j : BitVec 3) : EncodedLength.Statement (.vmTestM j) :=
  ⟨rfl, fun eam _ => by cases eam <;> simp [encode, enc1, instrLength, Instr.length]⟩

theorem EncodedLength.vmCidxZ (i : BitVec 3) (j : BitVec 3) : EncodedLength.Statement (.vmCidxZ i j) :=
  ⟨rfl, fun eam _ => by cases eam <;> simp [encode, enc1, instrLength, Instr.length]⟩

theorem EncodedLength.vmCidxN (i : BitVec 3) (j : BitVec 3) : EncodedLength.Statement (.vmCidxN i j) :=
  ⟨rfl, fun eam _ => by cases eam <;> simp [encode, enc1, instrLength, Instr.length]⟩

theorem EncodedLength.vmCidxP (i : BitVec 3) (j : BitVec 3) : EncodedLength.Statement (.vmCidxP i j) :=
  ⟨rfl, fun eam _ => by cases eam <;> simp [encode, enc1, instrLength, Instr.length]⟩

theorem EncodedLength.vmCidxM (i : BitVec 3) (j : BitVec 3) : EncodedLength.Statement (.vmCidxM i j) :=
  ⟨rfl, fun eam _ => by cases eam <;> simp [encode, enc1, instrLength, Instr.length]⟩

theorem EncodedLength.s0Shl (i : BitVec 3) (jk : BitVec 6) : EncodedLength.Statement (.s0Shl i jk) :=
  ⟨rfl, fun eam _ => by cases eam <;> simp [encode, encJk, instrLength, Instr.length]⟩

theorem EncodedLength.s0Shr (i : BitVec 3) (jk : BitVec 6) : EncodedLength.Statement (.s0Shr i jk) :=
  ⟨rfl, fun eam _ => by cases eam <;> simp [encode, encJk, instrLength, Instr.length]⟩

theorem EncodedLength.sShl (i : BitVec 3) (jk : BitVec 6) : EncodedLength.Statement (.sShl i jk) :=
  ⟨rfl, fun eam _ => by cases eam <;> simp [encode, encJk, instrLength, Instr.length]⟩

theorem EncodedLength.sShr (i : BitVec 3) (jk : BitVec 6) : EncodedLength.Statement (.sShr i jk) :=
  ⟨rfl, fun eam _ => by cases eam <;> simp [encode, encJk, instrLength, Instr.length]⟩

theorem EncodedLength.sDshl (i : BitVec 3) (j : BitVec 3) (k : BitVec 3) : EncodedLength.Statement (.sDshl i j k) :=
  ⟨rfl, fun eam _ => by cases eam <;> simp [encode, enc1, instrLength, Instr.length]⟩

theorem EncodedLength.sDshr (i : BitVec 3) (j : BitVec 3) (k : BitVec 3) : EncodedLength.Statement (.sDshr i j k) :=
  ⟨rfl, fun eam _ => by cases eam <;> simp [encode, enc1, instrLength, Instr.length]⟩

theorem EncodedLength.vShl (i : BitVec 3) (j : BitVec 3) (k : BitVec 3) : EncodedLength.Statement (.vShl i j k) :=
  ⟨rfl, fun eam _ => by cases eam <;> simp [encode, enc1, instrLength, Instr.length]⟩

theorem EncodedLength.vShr (i : BitVec 3) (j : BitVec 3) (k : BitVec 3) : EncodedLength.Statement (.vShr i j k) :=
  ⟨rfl, fun eam _ => by cases eam <;> simp [encode, enc1, instrLength, Instr.length]⟩

theorem EncodedLength.vDshl (i : BitVec 3) (j : BitVec 3) (k : BitVec 3) : EncodedLength.Statement (.vDshl i j k) :=
  ⟨rfl, fun eam _ => by cases eam <;> simp [encode, enc1, instrLength, Instr.length]⟩

theorem EncodedLength.vDshr (i : BitVec 3) (j : BitVec 3) (k : BitVec 3) : EncodedLength.Statement (.vDshr i j k) :=
  ⟨rfl, fun eam _ => by cases eam <;> simp [encode, enc1, instrLength, Instr.length]⟩

theorem EncodedLength.aPop (i : BitVec 3) (j : BitVec 3) : EncodedLength.Statement (.aPop i j) :=
  ⟨rfl, fun eam _ => by cases eam <;> simp [encode, enc1, instrLength, Instr.length]⟩

theorem EncodedLength.aParity (i : BitVec 3) (j : BitVec 3) : EncodedLength.Statement (.aParity i j) :=
  ⟨rfl, fun eam _ => by cases eam <;> simp [encode, enc1, instrLength, Instr.length]⟩

theorem EncodedLength.aLzc (i : BitVec 3) (j : BitVec 3) : EncodedLength.Statement (.aLzc i j) :=
  ⟨rfl, fun eam _ => by cases eam <;> simp [encode, enc1, instrLength, Instr.length]⟩

theorem EncodedLength.vPop (i : BitVec 3) (j : BitVec 3) : EncodedLength.Statement (.vPop i j) :=
  ⟨rfl, fun eam _ => by cases eam <;> simp [encode, enc1, instrLength, Instr.length]⟩

theorem EncodedLength.vParity (i : BitVec 3) (j : BitVec 3) : EncodedLength.Statement (.vParity i j) :=
  ⟨rfl, fun eam _ => by cases eam <;> simp [encode, enc1, instrLength, Instr.length]⟩

theorem EncodedLength.jB (jk : BitVec 6) : EncodedLength.Statement (.jB jk) :=
  ⟨rfl, fun eam _ => by cases eam <;> simp [encode, encJk, instrLength, Instr.length]⟩

theorem EncodedLength.jExp (exp : BitVec 24) : EncodedLength.Statement (.jExp exp) :=
  ⟨rfl, fun eam _ => by cases eam <;> simp [encode, encAddr24, instrLength, Instr.length]⟩

theorem EncodedLength.jaz (exp : BitVec 24) : EncodedLength.Statement (.jaz exp) :=
  ⟨rfl, fun eam _ => by cases eam <;> simp [encode, encAddr24, instrLength, Instr.length]⟩

theorem EncodedLength.jan (exp : BitVec 24) : EncodedLength.Statement (.jan exp) :=
  ⟨rfl, fun eam _ => by cases eam <;> simp [encode, encAddr24, instrLength, Instr.length]⟩

theorem EncodedLength.jap (exp : BitVec 24) : EncodedLength.Statement (.jap exp) :=
  ⟨rfl, fun eam _ => by cases eam <;> simp [encode, encAddr24, instrLength, Instr.length]⟩

theorem EncodedLength.jam (exp : BitVec 24) : EncodedLength.Statement (.jam exp) :=
  ⟨rfl, fun eam _ => by cases eam <;> simp [encode, encAddr24, instrLength, Instr.length]⟩

theorem EncodedLength.jsz (exp : BitVec 24) : EncodedLength.Statement (.jsz exp) :=
  ⟨rfl, fun eam _ => by cases eam <;> simp [encode, encAddr24, instrLength, Instr.length]⟩

theorem EncodedLength.jsn (exp : BitVec 24) : EncodedLength.Statement (.jsn exp) :=
  ⟨rfl, fun eam _ => by cases eam <;> simp [encode, encAddr24, instrLength, Instr.length]⟩

theorem EncodedLength.jsp (exp : BitVec 24) : EncodedLength.Statement (.jsp exp) :=
  ⟨rfl, fun eam _ => by cases eam <;> simp [encode, encAddr24, instrLength, Instr.length]⟩

theorem EncodedLength.jsm (exp : BitVec 24) : EncodedLength.Statement (.jsm exp) :=
  ⟨rfl, fun eam _ => by cases eam <;> simp [encode, encAddr24, instrLength, Instr.length]⟩

theorem EncodedLength.rExp (exp : BitVec 24) : EncodedLength.Statement (.rExp exp) :=
  ⟨rfl, fun eam _ => by cases eam <;> simp [encode, encAddr24, instrLength, Instr.length]⟩

theorem EncodedLength.ex : EncodedLength.Statement .ex :=
  ⟨rfl, fun eam _ => by cases eam <;> simp [encode, enc1, instrLength, Instr.length]⟩

theorem EncodedLength.err : EncodedLength.Statement .err :=
  ⟨rfl, fun eam _ => by cases eam <;> simp [encode, enc1, instrLength, Instr.length]⟩

theorem EncodedLength.pass : EncodedLength.Statement .pass :=
  ⟨rfl, fun eam _ => by cases eam <;> simp [encode, enc1, instrLength, Instr.length]⟩

theorem EncodedLength.chCa (j : BitVec 3) (k : BitVec 3) : EncodedLength.Statement (.chCa j k) :=
  ⟨rfl, fun eam _ => by cases eam <;> simp [encode, enc1, instrLength, Instr.length]⟩

theorem EncodedLength.chCl (j : BitVec 3) (k : BitVec 3) : EncodedLength.Statement (.chCl j k) :=
  ⟨rfl, fun eam _ => by cases eam <;> simp [encode, enc1, instrLength, Instr.length]⟩

theorem EncodedLength.chCi (j : BitVec 3) : EncodedLength.Statement (.chCi j) :=
  ⟨rfl, fun eam _ => by cases eam <;> simp [encode, enc1, instrLength, Instr.length]⟩

theorem EncodedLength.chMc (j : BitVec 3) : EncodedLength.Statement (.chMc j) :=
  ⟨rfl, fun eam _ => by cases eam <;> simp [encode, enc1, instrLength, Instr.length]⟩

theorem EncodedLength.xaFromA (j : BitVec 3) : EncodedLength.Statement (.xaFromA j) :=
  ⟨rfl, fun eam _ => by cases eam <;> simp [encode, enc1, instrLength, Instr.length]⟩

theorem EncodedLength.rtcLoad (j : BitVec 3) : EncodedLength.Statement (.rtcLoad j) :=
  ⟨rfl, fun eam _ => by cases eam <;> simp [encode, enc1, instrLength, Instr.length]⟩

theorem EncodedLength.pciLoad (j : BitVec 3) : EncodedLength.Statement (.pciLoad j) :=
  ⟨rfl, fun eam _ => by cases eam <;> simp [encode, enc1, instrLength, Instr.length]⟩

theorem EncodedLength.cci : EncodedLength.Statement .cci :=
  ⟨rfl, fun eam _ => by cases eam <;> simp [encode, enc1, instrLength, Instr.length]⟩

theorem EncodedLength.eci : EncodedLength.Statement .eci :=
  ⟨rfl, fun eam _ => by cases eam <;> simp [encode, enc1, instrLength, Instr.length]⟩

theorem EncodedLength.sipi (j : BitVec 3) : EncodedLength.Statement (.sipi j) :=
  ⟨rfl, fun eam _ => by cases eam <;> simp [encode, enc1, instrLength, Instr.length]⟩

theorem EncodedLength.dci : EncodedLength.Statement .dci :=
  ⟨rfl, fun eam _ => by cases eam <;> simp [encode, enc1, instrLength, Instr.length]⟩

theorem EncodedLength.cipi : EncodedLength.Statement .cipi :=
  ⟨rfl, fun eam _ => by cases eam <;> simp [encode, enc1, instrLength, Instr.length]⟩

theorem EncodedLength.clnLoad (j : BitVec 3) : EncodedLength.Statement (.clnLoad j) :=
  ⟨rfl, fun eam _ => by cases eam <;> simp [encode, enc1, instrLength, Instr.length]⟩

theorem EncodedLength.eri : EncodedLength.Statement .eri :=
  ⟨rfl, fun eam _ => by cases eam <;> simp [encode, enc1, instrLength, Instr.length]⟩

theorem EncodedLength.dri : EncodedLength.Statement .dri :=
  ⟨rfl, fun eam _ => by cases eam <;> simp [encode, enc1, instrLength, Instr.length]⟩

theorem EncodedLength.aFromCi (i : BitVec 3) : EncodedLength.Statement (.aFromCi i) :=
  ⟨rfl, fun eam _ => by cases eam <;> simp [encode, enc1, instrLength, Instr.length]⟩

theorem EncodedLength.aFromCa (i : BitVec 3) (j : BitVec 3) : EncodedLength.Statement (.aFromCa i j) :=
  ⟨rfl, fun eam _ => by cases eam <;> simp [encode, enc1, instrLength, Instr.length]⟩

theorem EncodedLength.aFromCe (i : BitVec 3) (j : BitVec 3) : EncodedLength.Statement (.aFromCe i j) :=
  ⟨rfl, fun eam _ => by cases eam <;> simp [encode, enc1, instrLength, Instr.length]⟩

end Sys2Proof.Laws
end

