-- ==== Sys2Proof/Laws/References.lean ====
section
/-! SUPPORT. Operand references that can be made (20_memory.md R86, R94, R98): what a scalar or block reference then
does, element by element, and what a list of word writes leaves in a word. -/

namespace Sys2Proof.Machine

open Sys2Proof

theorem locate_reaches {s : State} {ea : Addr} {block write : Bool} (h : Reaches s block write (s.wordOf ea)) :
    s.locate ea = .ok (some (s.wordOf ea)) := locate_some.mpr ⟨rfl, h.1, h.2.1, h.2.2.1⟩

/-- The errors of reads, as the relation of Safety.lean. -/
theorem errorsSeen_noteErrors (c : Cpu) (l : List ReadError) : ErrorsSeen c (c.noteErrors l) l := by
  have he : ∀ k, MemErrEnabled c.m k ↔ c.m.reports k = true := fun k => by cases k <;> rfl
  refine ⟨?_, ?_, ?_, ?_, ?_⟩
  · rw [noteErrors_eq]; simp
  · rw [noteErrors_eq]; simp [spoiled]
  · rw [noteErrors_eq]
  · rw [noteErrors_eq]; simp [he]
  · simpa [he] using noteErrors_memErr c l

/-- A scalar read that can be made is made, with the errors that accompany it. -/
theorem dataRead_reaches {s : State} {ea : Addr} (h : Reaches s false false (s.wordOf ea)) :
    let l := s.errorsAt (.operand 0)
    s.dataRead ea = .ok (delivered l (s.drawAt 0) (Memory.readWord s.mem (s.wordOf ea)),
      (s.withCpu { s.cpu with
        refs := addRef { addr := s.wordOf ea, block := false, write := false } s.cpu.refs }).afterReads l 1) := by
  have hc := (claim_ok (s := s) (new := [{ addr := s.wordOf ea, block := false, write := false }])).mpr
    ⟨by simpa using h.2.2.2, rfl⟩
  simp only [State.dataRead, locate_reaches h, hc]; rfl

/-- A scalar write that can be made is made. -/
theorem dataWrite_reaches {s : State} {ea : Addr} {v : Word} (h : Reaches s false true (s.wordOf ea)) :
    s.dataWrite ea v = .ok ((s.withCpu { s.cpu with
      refs := addRef { addr := s.wordOf ea, block := false, write := true } s.cpu.refs }).memWrite (s.wordOf ea) v) := by
  have hc := (claim_ok (s := s) (new := [{ addr := s.wordOf ea, block := false, write := true }])).mpr
    ⟨by simpa using h.2.2.2, rfl⟩
  simp only [State.dataWrite, locate_reaches h, hc]; rfl

/-- Where a block reference's elements lie: aborted above the limit, else at their words. -/
def located (s : State) (eas : List Addr) : List (Option Nat) :=
  eas.map fun ea => if s.cpu.dla.toNat < s.wordOf ea then none else some (s.wordOf ea)

theorem locateAll_located {s : State} {write : Bool} {eas : List Addr}
    (h : ∀ ea ∈ eas, s.cpu.dla.toNat < s.wordOf ea ∨ Reaches s true write (s.wordOf ea)) :
    s.locateAll eas = .ok (located s eas) := by
  induction eas with
  | nil => rfl
  | cons ea rest ih =>
    have ih := ih fun e he => h e (by simp [he])
    rcases h ea (by simp) with hl | hr
    · simp only [State.locateAll, locate_none.mpr hl, ih, located, List.map_cons, if_pos hl]
    · have : ¬ s.cpu.dla.toNat < s.wordOf ea := by have := hr.1; omega
      simp only [State.locateAll, locate_reaches hr, ih, located, List.map_cons, if_neg this]

theorem claim_located {s : State} {write : Bool} {eas : List Addr}
    (h : ∀ ea ∈ eas, s.cpu.dla.toNat < s.wordOf ea ∨ Reaches s true write (s.wordOf ea)) :
    s.claim (refsOf true write (located s eas)) =
      .ok (s.withCpu { s.cpu with refs := (refsOf true write (located s eas)).foldr addRef s.cpu.refs }) := by
  refine claim_ok.mpr ⟨?_, rfl⟩
  rw [List.any_eq_false]
  intro x hx
  simp only [refsOf, located, List.filterMap_map, List.mem_filterMap, Function.comp] at hx
  obtain ⟨ea, hea, he⟩ := hx
  split at he
  · simp at he
  · rename_i hn
    simp only [Option.map_some, Option.some.injEq] at he
    rcases h ea hea with hl | hr
    · exact absurd hl hn
    · subst he
      rw [Bool.not_eq_true, List.any_eq_false]
      intro y hy
      simpa using hr.2.2.2 y hy

theorem memWrites_readWord_last (s : State) (l : List (Option (Nat × Word))) (a : Nat) :
    (∃ v, some (a, v) ∈ l ∧ Memory.readWord (s.memWrites l).mem a = v) ∨
    ((∀ p, some p ∈ l → p.1 ≠ a) ∧ Memory.readWord (s.memWrites l).mem a = Memory.readWord s.mem a) := by
  induction l generalizing s with
  | nil => right; simp [State.memWrites]
  | cons x rest ih =>
    cases x with
    | none =>
      rcases ih s with ⟨v, hv, e⟩ | ⟨hn, e⟩
      · exact .inl ⟨v, by simp [hv], e⟩
      · exact .inr ⟨fun p hp => hn p (by simpa using hp), e⟩
    | some p =>
      obtain ⟨b, w⟩ := p
      rcases ih (s.memWrite b w) with ⟨v, hv, e⟩ | ⟨hn, e⟩
      · exact .inl ⟨v, by simp [hv], e⟩
      · by_cases hb : b = a
        · subst hb
          refine .inl ⟨w, by simp, ?_⟩
          simp only [State.memWrites]
          rw [e]; simp
        · refine .inr ⟨?_, ?_⟩
          · intro p hp
            simp only [List.mem_cons, Option.some.injEq] at hp
            rcases hp with rfl | hp
            · exact hb
            · exact hn p hp
          · simp only [State.memWrites]
            rw [e]; simp [readWord_writeWord_ne _ _ _ _ (Ne.symm hb)]

theorem memWrites_byte (s : State) (l : List (Option (Nat × Word))) (x : Nat) (h : ∀ p, some p ∈ l → p.1 ≠ x / 8) :
    Memory.readByte (s.memWrites l).mem x = Memory.readByte s.mem x := by
  induction l generalizing s with
  | nil => rfl
  | cons y rest ih =>
    cases y with
    | none => exact ih s fun p hp => h p (by simp [hp])
    | some p =>
      simp only [State.memWrites]
      rw [ih _ fun q hq => h q (by simp [hq])]
      have := h p (by simp)
      simp only [State.memWrite_mem]
      exact readByte_writeWord_out _ _ _ _ (by omega)

/-- The writes of a block store no element of which is aborted. -/
theorem blockPuts_all (s : State) (n : Nat) (l : List Nat) (vals : List Word) :
    s.blockPuts false false [] n ((l.map some).zip vals) = (l.zip vals).map some := by
  induction l generalizing n vals with
  | nil => simp [State.blockPuts]
  | cons a rest ih =>
    cases vals with
    | nil => simp [State.blockPuts]
    | cons v vs =>
      simp only [List.map_cons, List.zip_cons_cons, State.blockPuts, State.blockPut, Bool.false_eq_true, if_false]
      simp [ih]

theorem memWrites_in_order (s : State) (l : List (Nat × Word)) (e : Nat) (a : Nat) (v : Word)
    (h : l[e]? = some (a, v)) (hl : ∀ e' p, e < e' → l[e']? = some p → p.1 ≠ a) :
    Memory.readWord (s.memWrites (l.map some)).mem a = v := by
  induction l generalizing s e with
  | nil => simp at h
  | cons p rest ih =>
    cases e with
    | zero =>
      simp at h; subst h
      simp only [List.map_cons, State.memWrites]
      rw [memWrites_other]
      · simp
      · intro p hp
        simp only [List.mem_map, Option.some.injEq, exists_eq_right] at hp
        obtain ⟨k, hk, rfl⟩ := List.getElem_of_mem hp
        exact hl (k+1) _ (by omega) (by simp [hk])
    | succ n =>
      simp only [List.map_cons, State.memWrites]
      exact ih _ n (by simpa using h) (fun e' p he hp => hl (e'+1) p (by omega) (by simpa using hp))

theorem located_all {s : State} {write : Bool} {eas : List Addr} (h : ReachesAll s write eas) :
    located s eas = (eas.map s.wordOf).map some := by
  simp only [located, List.map_map]
  refine List.map_congr_left fun ea hea => ?_
  have := (h ea hea).1
  simp [show ¬ s.cpu.dla.toNat < s.wordOf ea by omega]

theorem someOut_all (l : List Nat) : someOut (l.map some) = false := by
  simp [someOut]

theorem reachesAll_or {s : State} {write : Bool} {eas : List Addr} (h : ReachesAll s write eas) :
    ∀ ea ∈ eas, s.cpu.dla.toNat < s.wordOf ea ∨ Reaches s true write (s.wordOf ea) := fun ea hea => .inr (h ea hea)

/-- A block write that can be made stores every element, in rising order. -/
theorem blockWrite_reaches {s : State} {eas : List Addr} {vals : List Word} (h : ReachesAll s true eas) :
    ∃ refs, s.blockWrite false eas vals =
      .ok ((s.withCpu { s.cpu with refs := refs }).memWrites (((eas.map s.wordOf).zip vals).map some)) := by
  refine ⟨(refsOf true true (located s eas)).foldr addRef s.cpu.refs, ?_⟩
  simp only [State.blockWrite, locateAll_located (reachesAll_or h), claim_located (reachesAll_or h)]
  rw [located_all h, someOut_all, blockPuts_all]
  simp [State.afterBlock]

theorem storesInOrder (s : State) (eas : List Addr) (vals : List Word) (u : Bool)
    (h : ReachesAll s true eas) (k : State → State)
    (hk : ∀ t, k t = { t with cpu := { t.cpu with vused := if u then true else t.cpu.vused } }) :
    StoresInOrder (orStop (s.blockWrite false eas vals) fun t => (k t).done 1) s (u || s.cpu.vused) eas vals := by
  obtain ⟨refs, e⟩ := blockWrite_reaches (vals := vals) h
  rw [e]
  simp only [orStop, hk]
  refine ⟨_, rfl, moved_advance _ _ _ (by simp), ?_, ?_, ?_⟩
  · intro e ea v he hv hlast
    refine memWrites_in_order _ _ e (s.wordOf ea) v ?_ ?_
    · rw [List.getElem?_zip_eq_some]; simp [he, hv]
    · intro e' p hlt hp
      obtain ⟨a, b⟩ := p
      rw [List.getElem?_zip_eq_some] at hp
      obtain ⟨h1, h2⟩ := hp
      simp only [List.getElem?_map, Option.map_eq_some_iff] at h1
      obtain ⟨ea', h3, h4⟩ := h1
      subst h4
      exact hlast e' ea' hlt h3
  · intro x hx
    refine memWrites_byte _ _ x ?_
    intro p hp
    simp only [List.mem_map, Option.some.injEq, exists_eq_right] at hp
    have := List.of_mem_zip (a := p.1) (b := p.2) hp
    obtain ⟨ea, hea, e⟩ := List.mem_map.mp this.1
    intro hc
    exact hx ⟨ea, hea, by rw [e, hc]⟩
  · have hf := memWrites_frame (s.withCpu { s.cpu with refs := refs }) (((eas.map s.wordOf).zip vals).map some)
    simp only [State.advance, State.withCpu] at hf ⊢
    rw [hf]
    cases u <;> simp

theorem blockElems_get (s : State) (b : Bool) (n e : Nat) (l : List (Option Nat)) :
    (s.blockElems b n l)[e]? = (l[e]?).map fun x => s.blockElem b (n + e) x := by
  induction l generalizing n e with
  | nil => simp [State.blockElems]
  | cons a rest ih =>
    cases e with
    | zero => simp [State.blockElems]
    | succ m => simp only [State.blockElems, List.getElem?_cons_succ, ih]; rw [show n + 1 + m = n + (m + 1) by omega]

/-- The errors of a block read none of which is aborted. -/
theorem blockErrors_all (s : State) (n : Nat) (l : List Nat) :
    s.blockErrors n (l.map some) = (List.range' n l.length).flatMap fun e => s.errorsAt (.operand e) := by
  induction l generalizing n with
  | nil => rfl
  | cons a rest ih => simp [State.blockErrors, ih, List.range'_succ]

/-- A block read that can be made delivers every word whose read has no uncorrectable error. -/
theorem blockRead_reaches {s : State} {eas : List Addr} (h : ReachesAll s false eas) :
    ∃ refs l, s.blockRead eas =
        .ok (l, (s.withCpu { s.cpu with refs := refs }).afterReads (s.operandErrors eas.length) 128) ∧
      ∀ e : Nat, l[e]? = (eas[e]?).map fun ea =>
        some (delivered (s.errorsAt (.operand e)) (s.drawAt (64 + e)) (Memory.readWord s.mem (s.wordOf ea))) := by
  refine ⟨(refsOf true false (located s eas)).foldr addRef s.cpu.refs, ?_⟩
  refine ⟨(s.withCpu { s.cpu with
    refs := (refsOf true false (located s eas)).foldr addRef s.cpu.refs }).blockElems false 0 (located s eas),
    ?_, fun e => ?_⟩
  · simp only [State.blockRead, locateAll_located (reachesAll_or h), claim_located (reachesAll_or h)]
    rw [located_all h, someOut_all, blockErrors_all]
    simp only [State.afterBlock, List.length_map, State.operandErrors, List.range_eq_range']
    rfl
  · rw [blockElems_get, located_all h, List.getElem?_map, List.getElem?_map]
    cases eas[e]? <;> simp [State.blockElem, State.drawAt]

/-- A register of a file after a block read. -/
theorem blockLoaded_get {α : Type} (v : Vector α (2 ^ 6)) (jk : Nat) (conv : Word → α) (l : List (Option Word))
    (r : BitVec 6) :
    regGet (blockLoaded v jk conv l) r =
      if r.toNat < jk then regGet v r
      else match l[r.toNat - jk]? with
        | some (some w) => conv w
        | _ => regGet v r := by
  simp only [blockLoaded, regGet_ofFn]; rfl

theorem someOut_iff (s : State) (eas : List Addr) :
    someOut (located s eas) = true ↔ ∃ ea ∈ eas, s.cpu.dla.toNat < s.wordOf ea := by
  simp only [someOut, located, List.any_map, List.any_eq_true, Function.comp]
  constructor
  · rintro ⟨ea, h, h2⟩; refine ⟨ea, h, ?_⟩; by_contra hc; simp [hc] at h2
  · rintro ⟨ea, h, h2⟩; exact ⟨ea, h, by simp [h2]⟩

/-- A block read with an aborted element. -/
theorem blockRead_some {s : State} {eas : List Addr} (h : ReachesSome s false eas)
    (hc : ∀ n, s.errorsAt (.operand n) = []) :
    ∃ refs, s.blockRead eas =
      .ok ((s.withCpu { s.cpu with refs := refs }).blockElems true 0 (located s eas),
        ((s.withCpu { s.cpu with refs := refs }).drawn eas.length).withCpu
          ({ s.cpu with refs := refs } : Cpu).raiseOre) := by
  have he : ∀ n l, s.blockErrors n l = [] := by
    intro n l
    induction l generalizing n with
    | nil => rfl
    | cons x rest ih => cases x <;> simp [State.blockErrors, hc, ih]
  refine ⟨(refsOf true false (located s eas)).foldr addRef s.cpu.refs, ?_⟩
  simp only [State.blockRead, locateAll_located h.1, claim_located h.1]
  rw [(someOut_iff s eas).mpr h.2, he]
  simp [State.afterBlock, located]

theorem blockPuts_get (s : State) (b sc : Bool) (seen : List Nat) (n e : Nat) (l : List (Option Nat × Word)) :
    ∃ seen', (s.blockPuts b sc seen n l)[e]? = (l[e]?).map fun x => s.blockPut b seen' (n + e) x.1 x.2 := by
  induction l generalizing n e seen with
  | nil => exact ⟨[], by simp [State.blockPuts]⟩
  | cons a rest ih =>
    obtain ⟨x, v⟩ := a
    cases e with
    | zero => exact ⟨seen, by simp [State.blockPuts]⟩
    | succ m =>
      obtain ⟨seen', h⟩ := ih (if sc then x.toList ++ seen else seen) (n + 1) m
      refine ⟨seen', ?_⟩
      simp only [State.blockPuts, List.getElem?_cons_succ, h]
      rw [show n + 1 + m = n + (m + 1) by omega]

/-- Every write of a block store is one of an element at the word it names. -/
theorem blockPuts_mem (s : State) (b sc : Bool) (seen : List Nat) (n : Nat) (l : List (Option Nat × Word)) (p : Nat × Word)
    (h : some p ∈ s.blockPuts b sc seen n l) : ∃ e : Nat, l[e]? = some (some p.1, p.2) := by
  obtain ⟨e, he, hp⟩ := List.getElem_of_mem h
  obtain ⟨seen', hg⟩ := blockPuts_get s b sc seen n e l
  rw [List.getElem?_eq_getElem he, hp] at hg
  refine ⟨e, ?_⟩
  cases hl : l[e]? with
  | none => simp [hl] at hg
  | some x =>
    obtain ⟨a, v⟩ := x
    rw [hl] at hg
    simp only [Option.map_some, Option.some.injEq, State.blockPut] at hg
    cases a with
    | none => simp at hg
    | some a =>
      simp only at hg
      split at hg
      · simp at hg
      · simp at hg; simp [hg]

/-! ## Fetches (20_memory.md R88) -/

/-- A fetch that can be made is made, with the errors that accompany it. -/
theorem fetchParcel_fetches {s : State} {n : Nat} (h : Fetches s (s.cpu.p + BitVec.ofNat 24 n)) :
    let p := s.cpu.p + BitVec.ofNat 24 n
    let l := s.errorsAt (.fetch n)
    s.fetchParcel n = .ok (some (wordParcel (delivered l (s.drawAt 0) (Memory.readWord s.mem (s.fetchAddr p)))
      (parcelNumber p), s.afterReads l 1)) := by
  obtain ⟨h1, h2, h3, h4⟩ := h
  simp only [State.fetchParcel]
  rw [if_neg (by omega), if_neg (by omega), if_neg (by omega), if_neg (by simp [h3]), if_neg (by simp [h4])]

/-- Without an uncorrectable error it delivers the parcel in memory. -/
theorem fetchParcel_clean {s : State} {n : Nat} (h : Fetches s (s.cpu.p + BitVec.ofNat 24 n))
    (hc : spoiled (s.errorsAt (.fetch n)) = false) :
    s.fetchParcel n = .ok (some (s.parcelAt (s.cpu.p + BitVec.ofNat 24 n),
      s.withCpu (s.cpu.noteErrors (s.errorsAt (.fetch n))))) := by
  rw [fetchParcel_fetches h, delivered_clean _ _ hc]
  simp only [State.parcelAt, State.afterReads, hc]
  rfl

end Sys2Proof.Machine
end

