-- ==== Sys2Proof/Tests/Slice0.lean ====
section
/-! SUPPORT. Tests: ill-formed terms refused, a word of every constructor written out from spec/30_encoding.md and the
forms of the opcode table, single steps with the expected results of spec/95_test_vectors.md (its number in the name or
the comment), and for each obligation with hypotheses a concrete state that meets them. -/

namespace Sys2Proof.Tests

-- Hundreds of small theorems in a row: one at a time, since each elaborated on a thread of its own takes a stack.
set_option Elab.async false

open Sys2Proof Sys2Proof.Machine

/-! ## Well-formedness: one ill-formed term for each check (R128, R131) -/

theorem test_wf_semaphore_40_octal :
    Instr.wf (.smTs 0o40) = false ∧ Instr.wf (.smClr 0o40) = false ∧ Instr.wf (.smSet 0o77) = false ∧
      Instr.wf (.smTs 0o37) = true := by decide

theorem test_wf_pass_is_no_channel_address : Instr.wf (.chCa 0 0) = false ∧ Instr.wf (.chCa 0 1) = true := by decide

theorem test_wf_channel_reads_name_a_channel :
    Instr.wf (.aFromCa 3 0) = false ∧ Instr.wf (.aFromCe 3 0) = false ∧ Instr.wf (.aFromCi 3) = true := by decide

theorem test_modes : Instr.inMode (.aImm24 3 5) true = false ∧ Instr.inMode (.aImm32 3 5) false = false ∧
    Instr.inMode (.vImul32 1 2 3) false = false ∧ Instr.inMode (.vFiterSv 1 2 3) true = false := by decide

/-! ## Decoding: the words of all 166 instructions, one theorem for each family. The operand digits are h = 5, i = 3,
j = 1, k = 2; the second parcel is 123456 octal = 0xA72E, the third 054321 octal = 0x58D1. -/

/-- The address modes an encoding belongs to. -/
inductive Modes where
  | x
  | y
  | xy
  deriving DecidableEq, Repr

/-- The parcels decode to `i` in those modes and to nothing else. -/
def reads (row : Modes × List Parcel × Instr) : Bool :=
  let d := fun eam => decode eam (row.2.1.getD 0 0) (row.2.1.getD 1 0) (row.2.1.getD 2 0)
  let there := fun eam => decide (d eam = some row.2.2) && decide (encode row.2.2 = row.2.1)
  let absent := fun eam => decide (d eam ≠ some row.2.2)
  match row.1 with
  | .x => there false && absent true
  | .y => there true && absent false
  | .xy => there false && there true

/-- All rows decode so. -/
def allRead (l : List (Modes × List Parcel × Instr)) : Bool := l.all reads

theorem test_decode_register_entry : allRead [
    (.x, [0o015712, 0o123456], .aImm24 5 0xCAA72E), (.x, [0o020312, 0o123456], .aImm22 3 0x0AA72E),
    (.x, [0o021312, 0o123456], .aImm22c 3 0x0AA72E), (.y, [0o020300, 0o123456, 0o054321], .aImm32 3 0x58D1A72E),
    (.y, [0o021300, 0o123456, 0o054321], .aImm32c 3 0x58D1A72E), (.xy, [0o022312], .aImm6 3 0o12),
    (.x, [0o040312, 0o123456], .sImm22 3 0x0AA72E), (.x, [0o041312, 0o123456], .sImm22c 3 0x0AA72E),
    (.y, [0o040300, 0o123456, 0o054321], .sImm32 3 0x58D1A72E),
    (.y, [0o041300, 0o123456, 0o054321], .sImm32c 3 0x58D1A72E), (.xy, [0o042312], .sMaskr 3 0o12),
    (.xy, [0o043312], .sMaskl 3 0o12), (.xy, [0o071330], .sFc06 3), (.xy, [0o071340], .sFc04 3),
    (.xy, [0o071350], .sFc1 3), (.xy, [0o071360], .sFc2 3), (.xy, [0o071370], .sFc4 3)] = true := by decide

theorem test_decode_interregister_transfer : allRead [
    (.xy, [0o023310], .aFromS 3 1), (.xy, [0o023301], .aFromVl 3), (.xy, [0o024312], .aFromB 3 0o12),
    (.xy, [0o025312], .bFromA 3 0o12), (.xy, [0o026317], .aFromSb 3 1), (.xy, [0o027317], .sbFromA 3 1),
    (.xy, [0o071302], .sFromA 3 2), (.xy, [0o071312], .sFromASx 3 2), (.xy, [0o071322], .sFromAFlt 3 2),
    (.xy, [0o072300], .sFromRtc 3), (.xy, [0o072302], .sFromSm 3), (.xy, [0o072313], .sFromSt 3 1),
    (.xy, [0o073300], .sFromVm 3), (.xy, [0o073301], .sFromSr 3), (.xy, [0o073302], .smFromS 3),
    (.xy, [0o073313], .stFromS 3 1), (.xy, [0o074312], .sFromT 3 0o12), (.xy, [0o075312], .tFromS 3 0o12),
    (.xy, [0o076312], .sFromVelem 3 1 2), (.xy, [0o077312], .velemFromS 3 1 2), (.xy, [0o003010], .vmFromS 1),
    (.xy, [0o002002], .vlFromA 2), (.xy, [0o003412], .smTs 0o12), (.xy, [0o003612], .smClr 0o12),
    (.xy, [0o003712], .smSet 0o12)] = true := by decide

theorem test_decode_memory_transfer : allRead [
    (.xy, [0o002500], .dbm), (.xy, [0o002600], .ebm), (.xy, [0o002404], .dcbw), (.xy, [0o002604], .ecbw),
    (.xy, [0o002506], .dsbo), (.xy, [0o002606], .esbo), (.xy, [0o002700], .cmr),
    (.x, [0o105312, 0o123456], .ldAX 5 3 0x0AA72E), (.y, [0o105300, 0o123456, 0o054321], .ldAY 5 3 0x58D1A72E),
    (.x, [0o115312, 0o123456], .stAX 5 3 0x0AA72E), (.y, [0o115300, 0o123456, 0o054321], .stAY 5 3 0x58D1A72E),
    (.x, [0o125312, 0o123456], .ldSX 5 3 0x0AA72E), (.y, [0o125300, 0o123456, 0o054321], .ldSY 5 3 0x58D1A72E),
    (.x, [0o135312, 0o123456], .stSX 5 3 0x0AA72E), (.y, [0o135300, 0o123456, 0o054321], .stSY 5 3 0x58D1A72E),
    (.xy, [0o034312], .ldBBlk 3 0o12), (.xy, [0o035312], .stBBlk 3 0o12), (.xy, [0o036312], .ldTBlk 3 0o12),
    (.xy, [0o037312], .stTBlk 3 0o12), (.xy, [0o176302], .ldV 3 2), (.xy, [0o176312], .ldVGather 3 2),
    (.xy, [0o177012], .stV 1 2), (.xy, [0o177112], .stVScatter 1 2)] = true := by decide

theorem test_decode_integer_arithmetic : allRead [
    (.xy, [0o030312], .aAdd 3 1 2), (.xy, [0o031312], .aSub 3 1 2), (.xy, [0o032312], .aMul 3 1 2),
    (.xy, [0o060312], .sAdd 3 1 2), (.xy, [0o061312], .sSub 3 1 2), (.xy, [0o154312], .vAddSv 3 1 2),
    (.xy, [0o155312], .vAddVv 3 1 2), (.xy, [0o156312], .vSubSv 3 1 2),
    (.xy, [0o157312], .vSubVv 3 1 2)] = true := by decide

theorem test_decode_floating_point : allRead [
    (.xy, [0o002100], .efi), (.xy, [0o002200], .dfi), (.xy, [0o062312], .sFadd 3 1 2),
    (.xy, [0o063312], .sFsub 3 1 2), (.xy, [0o170312], .vFaddSv 3 1 2), (.xy, [0o171312], .vFaddVv 3 1 2),
    (.xy, [0o172312], .vFsubSv 3 1 2), (.xy, [0o173312], .vFsubVv 3 1 2), (.xy, [0o064312], .sFmul 3 1 2),
    (.xy, [0o065312], .sFmulH 3 1 2), (.xy, [0o066312], .sFmulR 3 1 2), (.xy, [0o160312], .vFmulSv 3 1 2),
    (.xy, [0o161312], .vFmulVv 3 1 2), (.xy, [0o162312], .vFmulHSv 3 1 2), (.xy, [0o163312], .vFmulHVv 3 1 2),
    (.xy, [0o164312], .vFmulRSv 3 1 2), (.xy, [0o165312], .vFmulRVv 3 1 2), (.xy, [0o067312], .sFiter 3 1 2),
    (.xy, [0o070310], .sFrecip 3 1), (.xy, [0o174310], .vFrecip 3 1), (.x, [0o166312], .vFiterSv 3 1 2),
    (.y, [0o166312], .vImul32 3 1 2), (.xy, [0o167312], .vFiterVv 3 1 2)] = true := by decide

theorem test_decode_logical : allRead [
    (.xy, [0o044312], .sAnd 3 1 2), (.xy, [0o045312], .sAndn 3 1 2), (.xy, [0o046312], .sXor 3 1 2),
    (.xy, [0o047312], .sXnor 3 1 2), (.xy, [0o050312], .sMerge 3 1 2), (.xy, [0o051312], .sOr 3 1 2),
    (.xy, [0o140312], .vAndSv 3 1 2), (.xy, [0o141312], .vAndVv 3 1 2), (.xy, [0o142312], .vOrSv 3 1 2),
    (.xy, [0o143312], .vOrVv 3 1 2), (.xy, [0o144312], .vXorSv 3 1 2), (.xy, [0o145312], .vXorVv 3 1 2),
    (.xy, [0o146312], .vMergeSv 3 1 2), (.xy, [0o147312], .vMergeVv 3 1 2), (.xy, [0o175010], .vmTestZ 1),
    (.xy, [0o175011], .vmTestN 1), (.xy, [0o175012], .vmTestP 1), (.xy, [0o175013], .vmTestM 1),
    (.xy, [0o175314], .vmCidxZ 3 1), (.xy, [0o175315], .vmCidxN 3 1), (.xy, [0o175316], .vmCidxP 3 1),
    (.xy, [0o175317], .vmCidxM 3 1)] = true := by decide

theorem test_decode_shift : allRead [
    (.xy, [0o052312], .s0Shl 3 0o12), (.xy, [0o053312], .s0Shr 3 0o12), (.xy, [0o054312], .sShl 3 0o12),
    (.xy, [0o055312], .sShr 3 0o12), (.xy, [0o056312], .sDshl 3 1 2), (.xy, [0o057312], .sDshr 3 1 2),
    (.xy, [0o150312], .vShl 3 1 2), (.xy, [0o151312], .vShr 3 1 2), (.xy, [0o152312], .vDshl 3 1 2),
    (.xy, [0o153312], .vDshr 3 1 2)] = true := by decide

theorem test_decode_bit_count : allRead [
    (.xy, [0o026310], .aPop 3 1), (.xy, [0o026311], .aParity 3 1), (.xy, [0o027310], .aLzc 3 1),
    (.xy, [0o174311], .vPop 3 1), (.xy, [0o174312], .vParity 3 1)] = true := by decide

theorem test_decode_branch_and_exit : allRead [
    (.xy, [0o005012], .jB 0o12), (.xy, [0o006312, 0o123456], .jExp 0xCAA72E),
    (.xy, [0o010312, 0o123456], .jaz 0xCAA72E), (.xy, [0o011312, 0o123456], .jan 0xCAA72E),
    (.xy, [0o012312, 0o123456], .jap 0xCAA72E), (.xy, [0o013312, 0o123456], .jam 0xCAA72E),
    (.xy, [0o014312, 0o123456], .jsz 0xCAA72E), (.xy, [0o015312, 0o123456], .jsn 0xCAA72E),
    (.xy, [0o016312, 0o123456], .jsp 0xCAA72E), (.xy, [0o017312, 0o123456], .jsm 0xCAA72E),
    (.xy, [0o007312, 0o123456], .rExp 0xCAA72E), (.xy, [0o004000], .ex), (.xy, [0o000000], .err)] = true := by decide

theorem test_decode_monitor_mode : allRead [
    (.xy, [0o001000], .pass), (.xy, [0o001012], .chCa 1 2), (.xy, [0o001112], .chCl 1 2), (.xy, [0o001210], .chCi 1),
    (.xy, [0o001211], .chMc 1), (.xy, [0o001310], .xaFromA 1), (.xy, [0o001410], .rtcLoad 1),
    (.xy, [0o001414], .pciLoad 1), (.xy, [0o001405], .cci), (.xy, [0o001406], .eci), (.xy, [0o001411], .sipi 1),
    (.xy, [0o001407], .dci), (.xy, [0o001402], .cipi), (.xy, [0o001413], .clnLoad 1), (.xy, [0o002300], .eri),
    (.xy, [0o002400], .dri), (.xy, [0o033300], .aFromCi 3), (.xy, [0o033310], .aFromCa 3 1),
    (.xy, [0o033311], .aFromCe 3 1)] = true := by decide
/-- Vectors RE3, RE7, RE21, IT5, IT28, M30, FP27, L22, BC10, BC13, BR3, BR18, BR25, MM24, MM25: no instruction. -/
theorem test_decode_unassigned :
    decode true 0o013423 0o000005 0 = none ∧ decode true 0o020101 0 0 = none ∧
    ([0o071371, 0o023111, 0o003440, 0o002504, 0o070321, 0o175110, 0o026322, 0o174313, 0o006400, 0o005100, 0o004001,
      0o000001, 0o033101, 0o001212, 0o176120, 0o177210, 0o072301, 0o073304, 0o001500, 0o003001] : List Parcel).all
      (fun p => decode false p 0 0 == none && decode true p 0 0 == none) = true := by decide

/-! ## Single steps: expected results from spec/95_test_vectors.md -/

/-- The start of the vectors: user mode, data at absolute words 1000 to 1777 octal, operand range errors reported. -/
def user (eam : Bool) : State :=
  let c := State.reset.cpu
  { State.reset with cpu := { c with
      dba := 0o1000, dla := 0o2000, m := { c.m with mm := false, ior := true, eam := eam } } }

/-- The state with another CPU. -/
def cpu (f : Cpu → Cpu) (s : State) : State := { s with cpu := f s.cpu }

/-- (Ar) is `v`. -/
def a (r : BitVec 3) (v : Addr) (s : State) : State := { s with cpu := { s.cpu with a := regPut s.cpu.a r v } }

/-- (Sr) is `v`. -/
def s (r : BitVec 3) (v : Word) (s : State) : State := { s with cpu := { s.cpu with s := regPut s.cpu.s r v } }

/-- (Br) is `v`. -/
def b (r : BitVec 6) (v : Addr) (s : State) : State := { s with cpu := { s.cpu with b := regPut s.cpu.b r v } }

/-- (Tr) is `v`. -/
def tr (r : BitVec 6) (v : Word) (s : State) : State := { s with cpu := { s.cpu with t := regPut s.cpu.t r v } }

/-- Vr holds the list in its first elements, 77 in the others. -/
def v (r : BitVec 3) (l : List Word) (s : State) : State :=
  { s with cpu := { s.cpu with v := regPut s.cpu.v r (Vector.ofFn fun e => l.getD e.val 77) } }

/-- VL is `n`. -/
def vl (n : BitVec 7) (s : State) : State := { s with cpu := { s.cpu with vl := n } }

/-- VM is `w`. -/
def vm (w : Word) (s : State) : State := { s with cpu := { s.cpu with vm := w } }

/-- CLN is `n`. -/
def cln (n : BitVec 4) (s : State) : State := { s with cpu := { s.cpu with cln := n } }

/-- Semaphore `n` of the CPU's cluster is 1. -/
def sem (n : BitVec 6) (s : State) : State := s.writeCluster (s.cluster.smSet n)

/-- P is `p`. -/
def at' (p : PAddr) (s : State) : State := { s with cpu := { s.cpu with p := p } }

/-- Another mode register. -/
def mode (f : Mode → Mode) (s : State) : State := { s with cpu := { s.cpu with m := f s.cpu.m } }

/-- Monitor mode. -/
def monitor : State → State := mode fun m => { m with mm := true }

/-- `data[x]` of the vectors is `w`. -/
def data (x : Nat) (w : Word) (s : State) : State := { s with mem := Memory.writeWord s.mem (0o1000 + x) w }

/-- Channel `n` is changed. -/
def chan (n : Addr) (f : Channel → Channel) (s : State) : State := s.setChannel n f

/-- What the parcels do. -/
def issue (eam : Bool) (p : List Parcel) (f : State → State) : Out :=
  match decode eam (p.getD 0 0) (p.getD 1 0) (p.getD 2 0) with
  | some i => exec i (f (user eam))
  | none => .refused (.unassigned (p.getD 0 0))

/-- The outcome is a next state with the property. -/
def ok (o : Out) (q : State → Bool) : Bool :=
  match o with
  | .next t => q t
  | _ => false

/-- In X-mode the parcels lead from the start, changed by `f`, to a state with the property. -/
def inX (p : List Parcel) (f : State → State) (q : State → Bool) : Bool := ok (issue false p f) q

/-- In Y-mode. -/
def inY (p : List Parcel) (f : State → State) (q : State → Bool) : Bool := ok (issue true p f) q

/-- In both modes. -/
def both (p : List Parcel) (f : State → State) (q : State → Bool) : Bool := inX p f q && inY p f q

/-- Refused under that name in both modes. -/
def refused (p : List Parcel) (f : State → State) (r : Refusal) : Bool :=
  [false, true].all fun eam => match issue eam p f with
    | .refused x => x == r
    | _ => false

/-- (Ar). -/
def rA (t : State) (r : BitVec 3) : Addr := regGet t.cpu.a r

/-- (Sr). -/
def rS (t : State) (r : BitVec 3) : Word := regGet t.cpu.s r

/-- The first `n` elements of Vr. -/
def rV (t : State) (r : BitVec 3) (n : Nat) : List Word := (List.range n).map fun e => t.velem r (BitVec.ofNat 6 e)

/-- `data[x]`. -/
def rD (t : State) (x : Nat) : Word := Memory.readWord t.mem (0o1000 + x)

/-! ### Register entry -/

theorem test_RE1 : inX [0o013423, 0o000005] id (fun t => rA t 3 == 0o04600005 && t.cpu.p == 2) = true := by decide
theorem test_RE2 : inX [0o010777, 0o177777] id (fun t => rA t 0 == 0o77777777) = true := by decide
theorem test_RE4 : inX [0o020377, 0o177777] id (fun t => rA t 3 == 0o17777777) = true := by decide
theorem test_RE5 : inX [0o021300, 0] id (fun t => rA t 3 == 0o77777777) = true := by decide
theorem test_RE6 : inY [0o020100, 0o177777, 1] id (fun t => rA t 1 == 0x0001FFFF && t.cpu.p == 3) = true := by decide
theorem test_RE8 : inY [0o021100, 0, 0] id (fun t => rA t 1 == 0xFFFFFFFF) = true := by decide
theorem test_RE9 : both [0o022077] id (fun t => rA t 0 == 63 && t.cpu.p == 1) = true := by decide
theorem test_RE10 : inX [0o040177, 0o177777] id (fun t => rS t 1 == 0x3FFFFF) = true := by decide
theorem test_RE11 : inX [0o041100, 0] id (fun t => rS t 1 == 0xFFFFFFFFFFFFFFFF) = true := by decide
theorem test_RE12 : inY [0o040200, 0o177777, 0o177777] id (fun t => rS t 2 == 0xFFFFFFFF) = true := by decide
theorem test_RE13 : inY [0o041200, 0o177777, 0o177777] id (fun t => rS t 2 == 0xFFFFFFFF00000000) = true := by decide
theorem test_RE14 : both [0o042200] id (fun t => rS t 2 == 0xFFFFFFFFFFFFFFFF) = true := by decide
theorem test_RE16 : both [0o042274] id (fun t => rS t 2 == 0xF) = true := by decide
theorem test_RE17 : both [0o043300] (s 3 1) (fun t => rS t 3 == 0) = true := by decide
theorem test_RE18 : both [0o043377] id (fun t => rS t 3 == 0xFFFFFFFFFFFFFFFE) = true := by decide
/-- Worked example E24. -/
theorem test_E24 : ([(0o071330, 0o0400606000000000000000), (0o071340, 0o0400004000000000000000),
    (0o071350, 0o0400014000000000000000), (0o071360, 0o0400024000000000000000),
    (0o071370, 0o0400034000000000000000)] : List (Parcel × Word)).all
      (fun x => both [x.1] id (fun t => rS t 3 == x.2)) = true := by decide

/-! ### Interregister transfer -/

theorem test_IT1 : inY [0o023320] (s 2 0x123456789ABCDEF0) (fun t => rA t 3 == 0x9ABCDEF0) = true := by decide
theorem test_IT2 : inX [0o023320] (s 2 0x123456789ABCDEF0) (fun t => rA t 3 == 0xBCDEF0) = true := by decide
theorem test_IT3 : both [0o023300] (s 0 99) (fun t => rA t 3 == 0) = true := by decide
theorem test_IT4 : both [0o023101] (vl 64) (fun t => rA t 1 == 0o100) = true := by decide
theorem test_IT6_to_B : both [0o025003] (a 0 7) (fun t => regGet t.cpu.b 3 == 7) = true := by decide
theorem test_IT6_from_B : both [0o024503] (b 3 7) (fun t => rA t 5 == 7) = true := by decide
theorem test_IT7 : both [0o071300] (a 0 9) (fun t => rS t 3 == 1) = true := by decide
theorem test_IT8 : inX [0o071312] (a 2 0o40000000) (fun t => rS t 3 == 0xFFFFFFFFFF800000) = true := by decide
theorem test_IT9 : inY [0o071312] (a 2 0x00800000) (fun t => rS t 3 == 0x00800000) = true := by decide
theorem test_IT11 : inX [0o071221] (a 1 0o77777777) (fun t => rS t 2 == 0o1400600000000000000001) = true := by decide
theorem test_IT12 : inY [0o071221] (a 1 0x80000000) (fun t => rS t 2 == 0o1400600000020000000000) = true := by decide
theorem test_rtc : both [0o072300] (fun s => { s with rtc := 5 }) (fun t => rS t 3 == 5) = true := by decide
theorem test_IT14 : both [0o076410] (v 1 [0, 0xAB]) (fun t => rS t 4 == 0xAB) = true := by decide
theorem test_IT15 : refused [0o076413] (a 3 64) .elementIndex = true := by decide
theorem test_IT16 : both [0o077302] (a 2 0 ∘ v 3 [5]) (fun t => rV t 3 2 == [0, 77] && t.cpu.vused) = true := by decide
theorem test_IT17 : both [0o003000] (vm 9) (fun t => t.cpu.vm == 0) = true := by decide
theorem test_vm_to_S : both [0o073300] (vm 9) (fun t => rS t 3 == 9) = true := by decide
theorem test_IT18 : both [0o002000] (a 0 17) (fun t => t.cpu.vl == 1) = true := by decide
theorem test_IT20 : refused [0o002003] (a 3 0o101) .vlTooLarge = true := by decide
theorem test_IT22 : refused [0o026327] (cln 0) .noCluster = true := by decide
theorem test_IT23_write : both [0o027137] (cln 2 ∘ a 1 5)
    (fun t => regGet (regGet t.clusters 2).sb 3 == 5 && regGet (regGet t.clusters 1).sb 3 == 0) = true := by decide
theorem test_IT23_read : both [0o026237]
    (fun s => (cln 2 s).writeCluster { Cluster.reset with sb := regPut Cluster.reset.sb 3 5 })
    (fun t => rA t 2 == 5) = true := by decide
theorem test_IT24_write : both [0o073102] (s 1 0xA000000000000000)
    (fun t => t.cluster.smIsSet 0 && !t.cluster.smIsSet 1 && t.cluster.smIsSet 2 && !t.cluster.smIsSet 31) = true := by
  decide
theorem test_IT24_read : both [0o072202] (sem 0 ∘ sem 2) (fun t => rS t 2 == 0xA000000000000000) = true := by decide
theorem test_IT25 : both [0o073102] (s 1 0x00000000FFFFFFFF ∘ sem 3) (fun t => t.cluster.sm == 0) = true := by decide
theorem test_ST_write : both [0o073313] (s 3 8) (fun t => regGet t.cluster.st 1 == 8) = true := by decide
theorem test_ST_read : both [0o072313]
    (fun s => s.writeCluster { Cluster.reset with st := regPut Cluster.reset.st 1 8 })
    (fun t => rS t 3 == 8) = true := by decide
theorem test_T_write : both [0o075312] (s 3 8) (fun t => regGet t.cpu.t 0o12 == 8) = true := by decide
theorem test_T_read : both [0o074312] (tr 0o12 8) (fun t => rS t 3 == 8) = true := by decide
theorem test_IT26 : both [0o003405] id (fun t => t.cluster.smIsSet 5 && t.cpu.p == 1) = true := by decide
theorem test_IT27 : both [0o003405] (sem 5) (fun t => t.cpu.p == 0 && t.cpu.holding == some 5) = true := by decide
theorem test_IT29_clear : both [0o003605] (sem 5) (fun t => !t.cluster.smIsSet 5) = true := by decide
theorem test_IT29_set : both [0o003737] id (fun t => t.cluster.smIsSet 31 && !t.cluster.smIsSet 30) = true := by decide

/-! ### Memory transfer -/

theorem test_M1 : inY [0o120100, 0o100, 0] (data 0o100 0x1122334455667788)
    (fun t => rS t 1 == 0x1122334455667788) = true := by decide
theorem test_M2 : inY [0o100100, 0o100, 0] (data 0o100 0x1122334455667788)
    (fun t => rA t 1 == 0x55667788 && t.cpu.p == 3) = true := by decide
theorem test_M3 : inX [0o100100, 0o100] (data 0o100 0x1122334455667788)
    (fun t => rA t 1 == 0x667788 && t.cpu.p == 2) = true := by decide
theorem test_M4 : inY [0o113200, 1, 0] (a 3 0o100 ∘ a 2 0xFFFFFFFF ∘ data 0o101 0x1122334455667788)
    (fun t => rD t 0o101 == 0xFFFFFFFF) = true := by decide
theorem test_store_A_in_X_mode : inX [0o113200, 1] (a 3 0o100 ∘ a 2 5) (fun t => rD t 0o101 == 5) = true := by decide
theorem test_M5 : inY [0o121200, 0o177777, 0o177777] (a 1 0o101 ∘ data 0o100 6) (fun t => rS t 2 == 6) = true := by
  decide
theorem test_M6 : inX [0o121200, 2] (a 1 0o77777777 ∘ data 1 6) (fun t => rS t 2 == 6) = true := by decide
theorem test_M7 : (match issue false [0o120140, 0] id with | .refused r => r == .displacementSign | _ => false) = true := by
  decide
theorem test_M8 : inY [0o120100, 0o777, 0] (data 0o777 6) (fun t => rS t 1 == 6) = true := by decide
theorem test_M9 : (match issue true [0o120100, 0o1000, 0] id with | .refused r => r == .limitEquality | _ => false) =
    true := by decide
theorem test_M10 : inY [0o120100, 0o1001, 0] id (fun t => t.cpu.f.ore && t.cpu.p == 3) = true := by decide
theorem test_M11 : inY [0o130100, 0o1001, 0] (s 1 3 ∘ mode fun m => { m with ior := false })
    (fun t => t.mem == [] && !t.cpu.f.any && t.cpu.p == 3) = true := by decide
theorem test_M12 : inY [0o120100, 0o1001, 0] monitor (fun t => !t.cpu.f.ore && t.cpu.p == 3) = true := by decide
theorem test_store_S_in_X_mode : inX [0o133200, 1] (a 3 0o100 ∘ s 2 5) (fun t => rD t 0o101 == 5) = true := by decide
theorem test_M13_Y : inY [0o034310] (a 0 0o100 ∘ a 3 2 ∘ data 0o100 0xAAAAAAAA12345678 ∘ data 0o101 9)
    (fun t => regGet t.cpu.b 0o10 == 0x12345678 && regGet t.cpu.b 0o11 == 9 && regGet t.cpu.b 0o12 == 0) = true := by
  decide
theorem test_M13_X : inX [0o034310] (a 0 0o100 ∘ a 3 2 ∘ data 0o100 0xAAAAAAAA12345678)
    (fun t => regGet t.cpu.b 0o10 == 0x345678) = true := by decide
theorem test_M14 : both [0o034310] (a 3 0) (fun t => t.cpu.p == 1 && regGet t.cpu.b 0o10 == 0) = true := by decide
theorem test_M15 : refused [0o034377] (a 3 2) .blockCount = true := by decide
theorem test_M16 : refused [0o035100] (a 1 65) .blockCount = true := by decide
theorem test_B_block_store : both [0o035110] (a 0 0o100 ∘ a 1 2 ∘ b 0o10 7 ∘ b 0o11 8)
    (fun t => [rD t 0o100, rD t 0o101, rD t 0o102] == [7, 8, 0]) = true := by decide
theorem test_T_block_load : both [0o036310] (a 0 0o100 ∘ a 3 1 ∘ data 0o100 0xAAAAAAAA12345678)
    (fun t => regGet t.cpu.t 0o10 == 0xAAAAAAAA12345678) = true := by decide
theorem test_M17 : both [0o037405] (a 0 0o500 ∘ a 4 3 ∘ tr 5 1 ∘ tr 6 2 ∘ tr 7 3)
    (fun t => [rD t 0o500, rD t 0o501, rD t 0o502] == [1, 2, 3]) = true := by decide
theorem test_M18 : both [0o176100] (vl 3 ∘ a 0 0o100 ∘ v 1 [] ∘ data 0o100 5 ∘ data 0o101 6 ∘ data 0o102 7 ∘ data 0o103 8)
    (fun t => rV t 1 4 == [5, 6, 7, 77]) = true := by decide
theorem test_M19 : inY [0o176102] (vl 3 ∘ a 0 0o100 ∘ a 2 0xFFFFFFFF ∘ data 0o100 5 ∘ data 0o77 6 ∘ data 0o76 7)
    (fun t => rV t 1 3 == [5, 6, 7]) = true := by decide
theorem test_M21 : refused [0o176100] (vl 0) .vlZero = true := by decide
/-- The source's example E16 with two more elements. -/
theorem test_M22 : both [0o176110] (vl 4 ∘ a 0 0o100 ∘ v 0 [4, 2, 0, 6] ∘ data 0o104 5 ∘ data 0o102 6 ∘ data 0o100 7)
    (fun t => rV t 1 4 == [5, 6, 7, 0]) = true := by decide
theorem test_M23 : refused [0o176111] id .vectorOverlap = true := by decide
theorem test_M24 : both [0o177110] (vl 4 ∘ a 0 0o100 ∘ v 0 [4, 2, 0, 6] ∘ v 1 [10, 11, 12, 13])
    (fun t => [rD t 0o104, rD t 0o102, rD t 0o100, rD t 0o106] == [10, 11, 12, 13]) = true := by decide
theorem test_M26 : both [0o177032] (vl 3 ∘ a 0 0o200 ∘ a 2 0 ∘ v 3 [7, 8, 9]) (fun t => rD t 0o200 == 9) = true := by
  decide
theorem test_M27 : refused [0o176200] (vl 4 ∘ a 0 0o775) .limitEquality = true := by decide
theorem test_M27b : both [0o176202] (vl 4 ∘ a 0 0o775 ∘ a 2 2) (fun t => t.cpu.f.ore && t.cpu.p == 1) = true := by
  decide
theorem test_M28_BDM : (both [0o002500] (mode fun m => { m with bdm := true }) (fun t => !t.cpu.m.bdm) &&
    both [0o002600] id (fun t => t.cpu.m.bdm)) = true := by decide
theorem test_M28_CBW : (both [0o002404] (cpu fun c => { c with cbw := true }) (fun t => !t.cpu.cbw) &&
    both [0o002604] id (fun t => t.cpu.cbw)) = true := by decide
theorem test_M28_SBO : (both [0o002506] (cpu fun c => { c with sbo := true }) (fun t => !t.cpu.sbo) &&
    both [0o002606] id (fun t => t.cpu.sbo)) = true := by decide
theorem test_M29 : both [0o002700] id (fun t => t.cpu.p == 1) = true := by decide

/-! ### Integer arithmetic -/

theorem test_IA2 : inX [0o030310] (a 1 0o77777777) (fun t => rA t 3 == 0) = true := by decide
theorem test_IA3 : inY [0o030310] (a 1 0o77777777) (fun t => rA t 3 == 0x01000000) = true := by decide
theorem test_IA4 : inX [0o031200] id (fun t => rA t 2 == 0xFFFFFF) = true := by decide
theorem test_IA5 : inY [0o031102] (a 2 0x80000000) (fun t => rA t 1 == 0x80000000) = true := by decide
theorem test_IA7 : both [0o032302] (a 2 77) (fun t => rA t 3 == 0) = true := by decide
theorem test_IA9 : inY [0o032312] (a 1 0xFFFFFFFF ∘ a 2 0xFFFFFFFF) (fun t => rA t 3 == 1) = true := by decide
theorem test_IA10 : both [0o060320] (s 2 5) (fun t => rS t 3 == 0x8000000000000005) = true := by decide
theorem test_IA11 : both [0o060312] (s 1 0xFFFFFFFFFFFFFFFF ∘ s 2 1) (fun t => rS t 3 == 0 && !t.cpu.f.any) = true := by
  decide
theorem test_IA12 : both [0o061300] id (fun t => rS t 3 == 0x8000000000000000) = true := by decide
theorem test_IA13 : both [0o061302] (s 2 1) (fun t => rS t 3 == 0xFFFFFFFFFFFFFFFF) = true := by decide
theorem test_IA14 : both [0o154312] (vl 2 ∘ s 1 0xFFFFFFFFFFFFFFFF ∘ v 2 [1, 2] ∘ v 3 [])
    (fun t => rV t 3 3 == [0, 1, 77]) = true := by decide
theorem test_IA15 : both [0o155333] (vl 2 ∘ v 3 [3, 0x8000000000000000]) (fun t => rV t 3 3 == [6, 0, 77]) = true := by
  decide
theorem test_IA16 : both [0o156302] (vl 2 ∘ v 2 [1, 0]) (fun t => rV t 3 2 == [0xFFFFFFFFFFFFFFFF, 0]) = true := by
  decide
theorem test_IA17 : both [0o157311] (vl 3 ∘ v 1 [5, 6, 7]) (fun t => rV t 3 3 == [0, 0, 0]) = true := by decide

/-! ### Floating point -/

theorem test_FP1 : both [0o062312] (s 1 0o0400014000000000000000 ∘ s 2 0o0400024000000000000000)
    (fun t => rS t 3 == 0o0400026000000000000000) = true := by decide
theorem test_FP8 : both [0o062312] (s 1 0o0400014000000000000000 ∘ s 2 0o0377224000000000000000)
    (fun t => rS t 3 == 0o0400014000000000000001) = true := by decide
theorem test_FP2 : both [0o063312] (s 1 0o0400034000000000000000 ∘ s 2 0o0400004000000000000000)
    (fun t => rS t 3 == 0o0400027000000000000000) = true := by decide
theorem test_FP10 : both [0o063312] (s 1 0o0200006000000000000000 ∘ s 2 0o0200004000000000000000)
    (fun t => rS t 3 == 0 && !t.cpu.m.fps && !t.cpu.f.any) = true := by decide
theorem test_FP12 : both [0o062311] (s 1 0o0577774000000000000000 ∘ mode fun m => { m with ifp := true })
    (fun t => rS t 3 == 0o0600004000000000000000 && t.cpu.m.fps && t.cpu.f.fpe && t.cpu.p == 1) = true := by decide
theorem test_FP13 : both [0o062311] (s 1 0o0577774000000000000000 ∘ mode fun m => { m with ifp := true, mm := true })
    (fun t => rS t 3 == 0o0600004000000000000000 && t.cpu.m.fps && !t.cpu.f.fpe) = true := by decide
theorem test_FP14 : both [0o064312] (s 1 0o0400014000000000000000 ∘ s 2 0o0400014000000000000000)
    (fun t => rS t 3 == 0o0400014000000000000000) = true := by decide
theorem test_FP17 : both [0o064311] (s 1 0o0577774000000000000000)
    (fun t => rS t 3 == 0o0600004000000000000000 && t.cpu.m.fps) = true := by decide
theorem test_FP18 : both [0o064311] (s 1 0o0200004000000000000000) (fun t => rS t 3 == 0) = true := by decide
theorem test_FP20 : both [0o064312] (s 1 0o0000000000000300000000 ∘ s 2 0o0000000000000500000000)
    (fun t => rS t 3 == 0o17) = true := by decide
theorem test_FP21 : both [0o064312] (s 1 0o1000000000000300000000 ∘ s 2 0o0000000000000500000000)
    (fun t => rS t 3 == 0o1000000000000000000017) = true := by decide
theorem test_FP28 : inY [0o166312] (vl 1 ∘ s 1 0x380000000 ∘ v 2 [0xFFFFFFFF0000])
    (fun t => rV t 3 2 == [0xFFFFFFF9, 0]) =
    true := by decide
theorem test_FP31 : (both [0o002100] id (fun t => t.cpu.m.ifp) &&
    both [0o002200] (mode fun m => { m with ifp := true }) (fun t => !t.cpu.m.ifp)) = true := by decide
theorem test_FP32 : both [0o170312] (vl 2 ∘ s 1 0o0577774000000000000000 ∘ v 2 [0o0577774000000000000000, 0])
    (fun t => rV t 3 2 == [0o0600004000000000000000, 0o0577774000000000000000] && t.cpu.m.fps) = true := by decide +kernel
/-- FP1 by elements (R327), FP2 (R328, R329), FP14 and FP15 (R333, R334). -/
theorem test_vector_sum : both [0o171312]
    (vl 1 ∘ v 1 [0o0400014000000000000000] ∘ v 2 [0o0400024000000000000000])
    (fun t => rV t 3 1 == [0o0400026000000000000000]) = true := by decide
theorem test_vector_difference_of_scalar : both [0o172312]
    (vl 1 ∘ s 1 0o0400034000000000000000 ∘ v 2 [0o0400004000000000000000])
    (fun t => rV t 3 1 == [0o0400027000000000000000]) = true := by decide
theorem test_vector_difference : both [0o173312]
    (vl 1 ∘ v 1 [0o0400034000000000000000] ∘ v 2 [0o0400004000000000000000])
    (fun t => rV t 3 1 == [0o0400027000000000000000]) = true := by decide
theorem test_vector_product_of_scalar : both [0o160312]
    (vl 1 ∘ s 1 0o0400014000000000000000 ∘ v 2 [0o0400014000000000000000])
    (fun t => rV t 3 1 == [0o0400014000000000000000]) = true := by decide
theorem test_vector_product : both [0o161312]
    (vl 1 ∘ v 1 [0o0400016000000000000000] ∘ v 2 [0o0400016000000000000000])
    (fun t => rV t 3 1 == [0o0400024400000000000000]) = true := by decide

/-! ### Logical, shift, bit count -/

theorem test_L1_and : both [0o044312] (s 1 0b1010 ∘ s 2 0b1100) (fun t => rS t 3 == 0b1000) = true := by decide
theorem test_L1_or : both [0o051312] (s 1 0b1010 ∘ s 2 0b1100) (fun t => rS t 3 == 0b1110) = true := by decide
theorem test_L1_xor : both [0o046312] (s 1 0b1010 ∘ s 2 0b1100) (fun t => rS t 3 == 0b0110) = true := by decide
theorem test_L1_xnor : both [0o047312] (s 1 0b1010 ∘ s 2 0b1100) (fun t => rS t 3 == 0xFFFFFFFFFFFFFFF9) = true := by
  decide
theorem test_L2 : both [0o044320] (s 2 0xFFFFFFFFFFFFFFFF) (fun t => rS t 3 == 0x8000000000000000) = true := by decide
theorem test_L4 : both [0o045320] (s 2 0x8000000000000001) (fun t => rS t 3 == 1) = true := by decide
theorem test_L6 : both [0o047300] id (fun t => rS t 3 == 0x7FFFFFFFFFFFFFFF) = true := by decide
theorem test_L8 : both [0o051300] id (fun t => rS t 3 == 0x8000000000000000) = true := by decide
/-- The source's example E5. -/
theorem test_L10 : both [0o050312] (s 3 0b11001100 ∘ s 1 0b10101010 ∘ s 2 0b11110000)
    (fun t => rS t 3 == 0b10101100) = true := by decide
theorem test_L11 : both [0o050310] (s 3 0x7FFFFFFFFFFFFFFF ∘ s 1 0x8000000000000000)
    (fun t => rS t 3 == 0xFFFFFFFFFFFFFFFF) = true := by decide
theorem test_vector_and_of_scalar : both [0o140312] (vl 1 ∘ s 1 0b1010 ∘ v 2 [0b1100])
    (fun t => rV t 3 1 == [0b1000]) = true := by decide
theorem test_vector_and : both [0o141312] (vl 1 ∘ v 1 [0b1010] ∘ v 2 [0b1100])
    (fun t => rV t 3 1 == [0b1000]) = true := by
  decide
theorem test_L13 : both [0o142301] (vl 2 ∘ v 1 [8, 9]) (fun t => rV t 3 2 == [8, 9]) = true := by decide
theorem test_vector_or : both [0o143312] (vl 1 ∘ v 1 [0b1010] ∘ v 2 [0b1100])
    (fun t => rV t 3 1 == [0b1110]) = true := by
  decide
theorem test_vector_xor_of_scalar : both [0o144312] (vl 1 ∘ s 1 0b1010 ∘ v 2 [0b1100])
    (fun t => rV t 3 1 == [0b0110]) = true := by decide
theorem test_L12 : both [0o145333] (vl 2 ∘ v 3 [5, 6, 7]) (fun t => rV t 3 3 == [0, 0, 7]) = true := by decide
theorem test_L14 : both [0o146302] (vl 3 ∘ vm 0xA000000000000000 ∘ v 2 [1, 2, 3])
    (fun t => rV t 3 3 == [0, 2, 0]) = true := by decide
theorem test_L15 : both [0o147312] (vl 3 ∘ vm 0x4000000000000000 ∘ v 1 [10, 11, 12] ∘ v 2 [20, 21, 22])
    (fun t => rV t 3 3 == [20, 11, 22]) = true := by decide
/-- With VL = 64 every bit of VM is decided (77 in the elements the vector does not give). -/
theorem test_L16_complement : both [0o175010] (vl 64 ∘ v 1 [0, 5, 0])
    (fun t => t.cpu.vm == 0xA000000000000000) = true := by decide +kernel
theorem test_L16 : both [0o175011] (vl 64 ∘ v 1 [0, 5, 0]) (fun t => t.cpu.vm == 0x5FFFFFFFFFFFFFFF) = true := by
  decide +kernel
theorem test_L17_P : both [0o175012] (vl 64 ∘ v 1 [0, 0x8000000000000000, 1])
    (fun t => t.cpu.vm == 0xBFFFFFFFFFFFFFFF) = true := by decide +kernel
theorem test_L17_M : both [0o175013] (vl 64 ∘ v 1 [0, 0x8000000000000000, 1])
    (fun t => t.cpu.vm == 0x4000000000000000) = true := by decide +kernel
theorem test_L18 : both [0o175104] (vl 64 ∘ v 0 [0, 7, 0, 9])
    (fun t => t.cpu.vm == 0xA000000000000000 && rV t 1 2 == [0, 2]) = true := by decide +kernel
/-- The source's example E18. -/
theorem test_L19 : both [0o175105] (vl 64 ∘ v 0 [0, 7, 0, 9])
    (fun t => t.cpu.vm == 0x5FFFFFFFFFFFFFFF && rV t 1 3 == [1, 3, 4]) = true := by decide +kernel
theorem test_compress_P : both [0o175106] (vl 64 ∘ v 0 [0, 0x8000000000000000, 1])
    (fun t => t.cpu.vm == 0xBFFFFFFFFFFFFFFF && rV t 1 3 == [0, 2, 3]) = true := by decide +kernel
theorem test_compress_M : both [0o175107] (vl 64 ∘ v 0 [0, 0x8000000000000000, 1])
    (fun t => t.cpu.vm == 0x4000000000000000 && rV t 1 1 == [1]) = true := by decide +kernel
theorem test_L21 : refused [0o175005] id .vectorOverlap = true := by decide
theorem test_SH1 : both [0o052200] (s 2 0xABCD) (fun t => rS t 0 == 0xABCD) = true := by decide
theorem test_SH2 : both [0o052277] (s 2 3) (fun t => rS t 0 == 0x8000000000000000) = true := by decide
theorem test_SH3 : both [0o053200] (s 2 0xFFFFFFFFFFFFFFFF) (fun t => rS t 0 == 0) = true := by decide
theorem test_SH4 : both [0o053277] (s 2 0xFFFFFFFFFFFFFFFF) (fun t => rS t 0 == 0x7FFFFFFFFFFFFFFF) = true := by decide
theorem test_SH5 : both [0o054304] (s 3 3) (fun t => rS t 3 == 48) = true := by decide
theorem test_SH6 : both [0o055370] (s 3 0xFF00) (fun t => rS t 3 == 0xFF) = true := by decide
theorem test_SH7 : both [0o056113] (s 1 0x8000000000000001 ∘ a 3 4) (fun t => rS t 1 == 0x18) = true := by decide
theorem test_SH10 : both [0o056123] (s 1 0xAAAAAAAAAAAAAAAA ∘ s 2 0x5555555555555555 ∘ a 3 127)
    (fun t => rS t 1 == 0x8000000000000000) = true := by decide
theorem test_SH8 : both [0o057113] (s 1 1 ∘ a 3 1) (fun t => rS t 1 == 0x8000000000000000) = true := by decide
theorem test_SH13 : both [0o057123] (s 2 0xAAAAAAAAAAAAAAAA ∘ s 1 0x5555555555555555 ∘ a 3 127)
    (fun t => rS t 1 == 1) = true := by decide
theorem test_SH16 : both [0o150312] (vl 2 ∘ v 1 [1, 3] ∘ a 2 64) (fun t => rV t 3 2 == [0, 0]) = true := by decide
theorem test_SH17 : both [0o151310] (vl 1 ∘ v 1 [0x8000000000000000]) (fun t => rV t 3 1 == [0x4000000000000000]) =
    true := by decide
theorem test_SH18 : both [0o152312] (vl 3 ∘ v 1 [1, 0x8000000000000000, 0xC000000000000000] ∘ a 2 1)
    (fun t => rV t 3 3 == [3, 1, 0x8000000000000000]) = true := by decide
theorem test_SH19 : both [0o153312] (vl 3 ∘ v 1 [1, 2, 3] ∘ a 2 1)
    (fun t => rV t 3 3 == [0, 0x8000000000000001, 1]) = true := by decide
theorem test_SH20 : refused [0o152112] id .vectorOverlap = true := by decide
theorem test_BC1 : both [0o026320] (s 2 0xFFFFFFFFFFFFFFFF) (fun t => rA t 3 == 64) = true := by decide
theorem test_BC4 : both [0o026321] (s 2 7) (fun t => rA t 3 == 1) = true := by decide
theorem test_BC7 : both [0o027320] (s 2 1) (fun t => rA t 3 == 63) = true := by decide
theorem test_BC8 : both [0o027320] (s 2 0) (fun t => rA t 3 == 64) = true := by decide
theorem test_BC11 : both [0o174311] (vl 2 ∘ v 1 [0xFF, 0]) (fun t => rV t 3 2 == [8, 0]) = true := by decide +kernel
theorem test_BC12 : both [0o174312] (vl 2 ∘ v 1 [7, 2]) (fun t => rV t 3 2 == [1, 1]) = true := by decide +kernel

/-! ### Branches -/

theorem test_BR2 : both [0o006377, 0o177777] id (fun t => t.cpu.p == 0o77777777) = true := by decide
theorem test_BR4 : both [0o010000, 0o100] (at' 5) (fun t => t.cpu.p == 0o100) = true := by decide
theorem test_BR5 : both [0o010000, 0o100] (at' 5 ∘ a 0 1) (fun t => t.cpu.p == 7) = true := by decide
theorem test_BR6 : both [0o011000, 0o100] (at' 0o77777776) (fun t => t.cpu.p == 0) = true := by decide
theorem test_BR7 : inX [0o012000, 0o100] (a 0 0o40000000) (fun t => t.cpu.p == 2) = true := by decide
theorem test_BR8 : inY [0o012000, 0o100] (a 0 0o40000000) (fun t => t.cpu.p == 0o100) = true := by decide
theorem test_BR9 : inX [0o013000, 0o100] (a 0 0o77777777) (fun t => t.cpu.p == 0o100) = true := by decide
theorem test_BR11 : both [0o014000, 0o100] (s 0 0x8000000000000000) (fun t => t.cpu.p == 2) = true := by decide
theorem test_JSN : both [0o015000, 0o100] (s 0 0x8000000000000000) (fun t => t.cpu.p == 0o100) = true := by decide
theorem test_BR12 : both [0o016000, 0o100] id (fun t => t.cpu.p == 0o100) = true := by decide
theorem test_BR13 : both [0o017000, 0o100] (s 0 0x8000000000000000) (fun t => t.cpu.p == 0o100) = true := by decide
theorem test_BR15 : both [0o007000, 0o200] (at' 0o77777776 ∘ b 0 9)
    (fun t => t.cpu.p == 0o200 && regGet t.cpu.b 0 == 0) = true := by decide
theorem test_BR16 : both [0o005000] (b 0 0o12) (fun t => t.cpu.p == 0o12) = true := by decide
theorem test_BR17 : (match issue true [0o005017] (b 0o17 0x01000000) with
    | .refused r => r == .branchTooWide
    | _ => false) = true := by decide

/-! ### Monitor mode and control -/

theorem test_MM1 : both [0o001000] (at' 5) (fun t => t.cpu.p == 6) = true := by decide
theorem test_MM2 : both [0o001320] (a 2 0o400 ∘ cpu fun c => { c with xa := 7 })
    (fun t => t.cpu.p == 1 && t.cpu.xa == 7) = true := by decide
theorem test_MM3 : both [0o001320] (a 2 0o400 ∘ monitor) (fun t => t.cpu.xa == 0o20) = true := by decide
theorem test_MM4 : both [0o001320]
    (a 2 0o20 ∘ monitor ∘ fun s => { s with params := { s.params with xaSel := .low8 } })
    (fun t => t.cpu.xa == 0o20) = true := by decide
theorem test_MM5 : refused [0o001320] (a 2 0o10000 ∘ monitor) .xaOperand = true := by decide
theorem test_MM7 : both [0o001410] (s 1 1000 ∘ monitor) (fun t => t.rtc == 1000) = true := by decide
theorem test_MM8 : both [0o001410] (s 1 1000) (fun t => t.rtc == 0 && t.cpu.p == 1) = true := by decide
theorem test_MM9 : both [0o001424] (s 2 100000 ∘ monitor)
    (fun t => t.cpu.ii == 100000 && t.cpu.pc == 100000) = true := by
  decide
theorem test_MM10 : refused [0o001424] (s 2 0x100000000 ∘ monitor) .clockOperand = true := by decide
theorem test_MM11 : (both [0o001406] monitor (fun t => t.cpu.pciEnabled) &&
    both [0o001407] (monitor ∘ cpu fun c => { c with pciEnabled := true }) (fun t => !t.cpu.pciEnabled) &&
    both [0o001405] (monitor ∘ cpu fun c => { c with pciRequest := true }) (fun t => !t.cpu.pciRequest)) = true := by
  decide
theorem test_MM12 : inY [0o001411] (a 1 2 ∘ monitor)
    (fun t => t.others.map Cpu.ipiRequest == [false, true, false]) = true := by decide
theorem test_MM13 : inX [0o001421] monitor (fun t => t.others.map Cpu.ipiRequest == [false, true, false]) = true := by
  decide
theorem test_MM15 : both [0o001402] (monitor ∘ cpu fun c => { c with ipiRequest := true })
    (fun t => !t.cpu.ipiRequest) = true := by decide
theorem test_MM16 : inX [0o001433] monitor (fun t => t.cpu.cln == 3) = true := by decide
theorem test_MM17 : inY [0o001423] (monitor ∘ a 2 0) (fun t => t.cpu.cln == 0) = true := by decide
theorem test_MM18 : (both [0o002300] (mode fun m => { m with ior := false }) (fun t => t.cpu.m.ior) &&
    both [0o002400] id (fun t => !t.cpu.m.ior)) = true := by decide
theorem test_MM19_CL : both [0o001113] (monitor ∘ a 1 2 ∘ a 3 0o4100)
    (fun t => t.channels.map Channel.cl == [0, 0, 0o4100, 0]) = true := by decide
theorem test_MM19_CA : both [0o001012] (monitor ∘ a 1 2 ∘ a 2 0o4000)
    (fun t => t.channels.map (fun c => (c.ca, c.active)) == [(0, false), (0, false), (0o4000, true), (0, false)]) =
    true := by decide
theorem test_MM20 : both [0o001210] (monitor ∘ a 1 2 ∘ chan 2 fun c => { c with intFlag := true, errFlag := true })
    (fun t => t.channels.all fun c => !c.intFlag && !c.errFlag) = true := by decide
theorem test_MC : both [0o001211] (monitor ∘ a 1 3) (fun t => t.channels.map Channel.masterClear ==
    [false, false, false, true]) = true := by decide
theorem test_MM21 : both [0o033100] (chan 2 fun c => { c with intFlag := true }) (fun t => rA t 1 == 2) = true := by
  decide
theorem test_MM23 : both [0o033120] (a 2 2 ∘ chan 2 fun c => { c with ca := 0o4040 })
    (fun t => rA t 1 == 0o4040) = true := by
  decide
theorem test_CE : both [0o033121] (a 2 2 ∘ chan 2 fun c => { c with errFlag := true })
    (fun t => rA t 1 == 1) = true := by
  decide

theorem test_FP22 : both [0o070320] id (fun t => t.cpu.m.fps && t.cpu.p == 1) = true := by decide +kernel
theorem test_FP25 : both [0o070320] (s 2 0o0200024000000000000000) (fun t => !t.cpu.m.fps) = true := by decide +kernel

/-! ### The exchange (X1 and P5 under the reset state's layout: P in bits 23..0 and VL in bits 38..32 of word 4 of the
package, MM in bit 21 of word 5) -/

/-- P5's user at the start of its step 3: A2 = 400 octal, XA = 20 octal, the monitor's package at words 400 octal on. -/
def leaving (mem : State → State) : State :=
  (a 2 0o400 ∘ at' 1 ∘ (cpu fun c => { c with xa := 0o20 }) ∘ mem) (user false)

/-- A package with P = 41 octal, MM = 1, A2 = 777 octal, XA = 20 octal, and the given VL. -/
def monitorPackage (vl : Word) (s : State) : State :=
  { s with mem := Memory.writeWord (Memory.writeWord (Memory.writeWord s.mem
      0o401 0o777) 0o404 (0o41 ||| 0o20 <<< 24 ||| vl <<< 32)) 0o405 (1 <<< 21) }

theorem test_P5_monitor_comes_in : ok (exec .ex (leaving (monitorPackage 5))) (fun t =>
    t.cpu.p == 0o41 && t.cpu.m.mm && rA t 2 == 0o777 && t.cpu.vl == 5 && t.cpu.xa == 0o20 && !t.cpu.f.any) = true := by
  decide +kernel
theorem test_X3 : (match exec .err (leaving (monitorPackage 65)) with
    | .refused r => r == .packageVl
    | _ => false) = true := by decide +kernel
theorem test_X4 : (match exec .ex { leaving id with params := { resetParams with memWords := 0o417 } } with
    | .fault r => r == .beyondMemory
    | _ => false) = true := by decide +kernel

/-! ### Boundaries -/

/-- A state whose next step fetches the parcels, which stand at P = 0, IBA = 4000 octal. -/
def fetching (eam : Bool) (p0 p1 p2 : Parcel) : State :=
  (at' 0 ∘ (cpu fun c => { c with iba := 0o4000, ila := 0o4001 }))
    { user eam with mem := Memory.writeWord [] 0o4000 (p0 ++ p1 ++ p2 ++ (0 : Parcel)) }

/-- One whose next step reads data word 3, which is 9, into S1. -/
def fetchingLoad : State := data 3 9 (fetching false 0o120100 3 0)

/-- The flags a CPU finds at the boundary after the events. -/
def finds (events : List Event) (s : State) (q : Cpu → Bool) : Bool :=
  match ({ s with agenda := [events] } : State).deliver with
  | .ok t => q t.atBoundary.cpu
  | .error _ => false

/-- A memory error's data. -/
def info : MemErrInfo := { syndrome := 1, readBank := 2, errType := 3, port := 0, chipSelect := 5, readMode := 1 }

theorem test_X5 : (finds [] (cpu (fun c => { c with ipiRequest := true }) (user false)) (fun c => c.f.icp) &&
    finds [] (cpu (fun c => { c with ipiRequest := true }) (monitor (user false)))
      (fun c => !c.f.icp && c.ipiRequest)) = true := by decide
theorem test_X6 : finds [.tick, .tick, .tick] (cpu
    (fun c => { c with ii := 3, pc := 3, pciEnabled := true }) (user false))
    (fun c => c.f.pci && c.pciRequest && c.pc == 3) = true := by decide
theorem test_X8 : finds [] (cpu (fun c => { c with holding := some 5 }) (sem 5 (user false)))
    (fun c => c.f.dl) = true := by
  decide
/-- What S1 and the CPU are after 1210mn reads data word 3, which is 9, with an error of that kind on the read. -/
def loads (kind : MemErrKind) (f : State → State) (q : State → Bool) : Bool :=
  ok (exec (.ldSY 0 1 3) { f (data 3 9 (user true)) with readErrors := [⟨.operand 0, kind, info⟩] }) q

/-- X9: a correctable error with the interrupt disabled; the word is delivered. -/
theorem test_X9 : loads .correctable id (fun t => t.cpu.cmeSeen && !t.cpu.f.any && t.cpu.memErr == none && rS t 1 == 9
    && t.draws == 0) = true := by decide
/-- X10: an uncorrectable error in monitor mode; the word delivered is a draw. -/
theorem test_X10 : loads .uncorrectable (mode fun m => { m with ium := true, mm := true }) (fun t =>
    t.cpu.f.me && t.cpu.umeSeen && t.cpu.memErr == some info && t.draws == 1) = true := by decide
/-- R524: of two reads of one word in one instruction (stride 0) the second has an error. -/
theorem test_R524_one_of_two_reads : ok
    (let s := (vl 2 ∘ a 2 0 ∘ data 0 9) (user true);
      exec (.ldV 1 2) { s with readErrors := [⟨.operand 1, .uncorrectable, info⟩] })
    (fun t => t.velem 1 0 == 9 && t.cpu.umeSeen && t.draws == 128) = true := by decide +kernel
/-- R524: a correctable error of the second parcel's fetch; the instruction (1200 in X-mode) runs. -/
theorem test_R524_fetch : ok (step { fetchingLoad with agenda := [[.readError ⟨.fetch 1, .correctable, info⟩]] })
    (fun t => t.cpu.cmeSeen && rS t 1 == 9) = true := by decide +kernel
/-- R534: an error of the package's reads is seen by the program that comes in. -/
theorem test_R534_package : ok (exec .ex { leaving (monitorPackage 5) with
      readErrors := [⟨.package 3, .correctable, info⟩] }) (fun t => t.cpu.cmeSeen && !t.cpu.f.any && t.cpu.p == 0o41) =
    true := by decide +kernel
/-- R519: a register parity error. -/
theorem test_R519_parity : finds [.parityError 0 (.s 3) info] (mode (fun m => { m with ium := true }) (s 2 7 (user false)))
    (fun c => c.f.me && c.umeSeen && !c.cmeSeen && regGet c.s 2 == 7) = true := by decide
/-- R520: a channel that may interrupt CPU 1 alone does not interrupt CPU 0. -/
theorem test_R520_restricted : finds [] (chan 2 (fun c => { c with intFlag := true, serves := [1] }) (user false))
    (fun c => !c.f.ioi) = true := by decide
/-- R325: the difference of equal operands, two zero words, is the zero word. -/
theorem test_R325_zeros : both [0o063312] (s 3 5) (fun t => rS t 3 == 0 && !t.cpu.m.fps) = true := by decide
/-- R13, R531: an X-mode exchange stores and loads the low 24 bits of an A register. -/
theorem test_R13_exchange :
    (a 3 0xFF000001 (user false)).cpu.field 0 (.a 3) = some 1 ∧
    ok (let s := leaving (monitorPackage 5); exec .ex { s with mem := Memory.writeWord s.mem 0o401 0xAB000002 })
      (fun t => rA t 2 == 2 && regGet t.cpu.a 2 == 2) = true := by decide +kernel
theorem test_R515 : finds [.mcu 0] (user false) (fun c => c.f.mcu) = true := by decide
/-- R560: a word of a transfer, and its end. -/
theorem test_R560 : (finds [.chanStep 2 9, .chanStep 2 8]
      (chan 2 (fun c => { c with active := true, ca := 0o4000, cl := 0o4001 }) (user false)) (fun c => c.f.ioi)) = true := by
  decide
/-- R560: an error takes the place of a word to move; at CA = CL there is none, and the transfer ends without an error. -/
theorem test_R560_error : ([0o4000, 0o4001] : List Addr).map (fun a =>
      ((chan 2 (fun c => { c with active := true, ca := a, cl := 0o4001 }) (user false)).chanError 2).channels.map
        fun c => (c.active, c.intFlag, c.errFlag)) =
    [true, false].map fun e => [(false, false, false), (false, false, false), (false, true, e), (false, false, false)] := by
  decide
/-- R580: a CPU that is deadstarted exchanges first. -/
theorem test_X12 : ok (step { leaving (monitorPackage 5) with agenda := [[.deadstart 0 0o20]] })
    (fun t => t.cpu.p == 0o41 && !t.cpu.deadstart) = true := by decide +kernel
/-- A table word (030ijk with i = 3, j = k = 1) is fetched and run by the next step from reset. -/
theorem test_withFetchWord : ok (step (State.reset.withFetchWord 16 0o030311)) (fun t => rA t 3 == 0 && t.cpu.p == 1) =
    true := by decide +kernel

/-! ## Every statement with hypotheses has a state that meets them -/

/-- An outcome with a property is a next state. -/
theorem next_of_ok {o : Out} {q : State → Bool} (h : ok o q = true) : ∃ t, o = .next t := by
  cases o with
  | next t => exact ⟨t, rfl⟩
  | fault r => cases h
  | refused r => cases h

theorem witness_DecodeUndoesEncode :
    (Instr.wf (.ldSY 5 3 0xFFFFFFFF) = true ∧ Instr.inMode (.ldSY 5 3 0xFFFFFFFF) true = true ∧
      encode (.ldSY 5 3 0xFFFFFFFF) ++ [1, 2] = 0o125300 :: 0o177777 :: 0o177777 :: [1, 2]) ∧
    (Instr.wf (.smTs 0o37) = true ∧ Instr.inMode (.smTs 0o37) false = true ∧
      encode (.smTs 0o37) ++ [1, 2] = 0o003437 :: 1 :: 2 :: []) := by decide

theorem witness_EncodeUndoesDecode :
    decode false 0o010777 0o177777 0 = some (.aImm24 0 0xFFFFFF) ∧ decode true 0o003437 0 0 = some (.smTs 0o37) := by
  decide

theorem witness_StepKeepsInvariant :
    (fetching false 0o001000 0 0).Inv ∧ ∃ t, step (fetching false 0o001000 0 0) = .next t :=
  ⟨(by refine ⟨?_, ?_, ?_, ?_, ?_, ?_, ?_, ?_, ?_, ?_, ?_⟩ <;> decide),
    next_of_ok (q := fun t => t.cpu.p == 1) (by decide)⟩

theorem witness_StepRunsDecodedInstruction :
    let s := fetching true 0o120100 0o100 0
    s.deliver = .ok s ∧ s.cpu.running = true ∧ s.atBoundary.cpu.f.any = false ∧ s.atBoundary.cpu.holding = none ∧
    Instr.wf (.ldSY 0 1 0o100) = true ∧
    (∀ n, n < Instr.length (.ldSY 0 1 0o100) → Fetches s.atBoundary (s.atBoundary.cpu.p + BitVec.ofNat 24 n)) ∧
    decode s.atBoundary.cpu.m.eam (s.atBoundary.parcelAt s.atBoundary.cpu.p)
      (s.atBoundary.parcelAt (s.atBoundary.cpu.p + 1)) (s.atBoundary.parcelAt (s.atBoundary.cpu.p + 2)) =
      some (.ldSY 0 1 0o100) ∧
    s.atBoundary.fetchErrors (Instr.length (.ldSY 0 1 0o100)) = [] :=
  ⟨rfl, by decide, by decide, by decide, by decide, by unfold Fetches; decide, by decide, by decide⟩

/-- The same with a correctable error on the read of the second parcel. -/
theorem witness_StepRunsDecodedInstruction_error :
    let e : ReadError := ⟨.fetch 1, .correctable, info⟩
    let s := { fetching true 0o120100 0o100 0 with agenda := [[.readError e]] }
    let u := { fetching true 0o120100 0o100 0 with readErrors := [e] }
    s.deliver = .ok u ∧ u.cpu.running = true ∧ u.atBoundary.cpu.f.any = false ∧ u.atBoundary.cpu.holding = none ∧
    (∀ n, n < Instr.length (.ldSY 0 1 0o100) → Fetches u.atBoundary (u.atBoundary.cpu.p + BitVec.ofNat 24 n)) ∧
    decode u.atBoundary.cpu.m.eam (u.atBoundary.parcelAt u.atBoundary.cpu.p)
      (u.atBoundary.parcelAt (u.atBoundary.cpu.p + 1)) (u.atBoundary.parcelAt (u.atBoundary.cpu.p + 2)) =
      some (.ldSY 0 1 0o100) ∧
    u.atBoundary.fetchErrors (Instr.length (.ldSY 0 1 0o100)) = [e] ∧ spoiled [e] = false :=
  ⟨rfl, by decide, by decide, by decide, by unfold Fetches; decide, by decide, by decide, by decide⟩

theorem witness_FlagExchangesBeforeIssue :
    let s := cpu (fun c => { c with f := { c.f with nex := true } }) (user false)
    s.deliver = .ok s ∧ s.cpu.running = true ∧ s.atBoundary.cpu.f.any = true := ⟨rfl, by decide, by decide⟩

/-- BR19's state in user mode and in monitor mode; the first parcel at the limit; the second parcel at the limit, with
the first below it. -/
theorem witness_ProgramRangeError :
    (let far := at' 0o40000 (cpu (fun c => { c with iba := 0o1000, ila := 0o2000 }) (user false));
      far.deliver = .ok far ∧ far.cpu.running = true ∧ far.atBoundary.cpu.f.any = false ∧
      far.atBoundary.cpu.holding = none ∧ far.atBoundary.cpu.ila.toNat < far.atBoundary.fetchAddr far.atBoundary.cpu.p ∧
      far.atBoundary.cpu.m.mm = false ∧ (monitor far).atBoundary.cpu.m.mm = true ∧
      (monitor far).atBoundary.cpu.m.imm = false) ∧
    (let edge := cpu (fun c => { c with ila := 0o4000 }) (fetching false 0 0 0);
      edge.deliver = .ok edge ∧ edge.cpu.running = true ∧ edge.atBoundary.cpu.f.any = false ∧
      edge.atBoundary.cpu.holding = none ∧ spoiled (edge.atBoundary.fetchErrors 0) = false ∧
      edge.atBoundary.fetchAddr (edge.atBoundary.cpu.p + BitVec.ofNat 24 0) = edge.atBoundary.cpu.ila.toNat) ∧
    (let split := at' 3 { fetching false 0 0 0 with mem := Memory.writeWord [] 0o4000 0o006000 };
      split.deliver = .ok split ∧ split.cpu.running = true ∧ split.atBoundary.cpu.f.any = false ∧
      split.atBoundary.cpu.holding = none ∧
      1 < instrLength (split.atBoundary.parcelAt split.atBoundary.cpu.p) split.atBoundary.cpu.m.eam ∧
      (∀ m, m < 1 → Fetches split.atBoundary (split.atBoundary.cpu.p + BitVec.ofNat 24 m)) ∧
      spoiled (split.atBoundary.fetchErrors 1) = false ∧
      split.atBoundary.fetchAddr (split.atBoundary.cpu.p + BitVec.ofNat 24 1) =
        split.atBoundary.cpu.ila.toNat) :=
  ⟨(by refine ⟨rfl, ?_, ?_, ?_, ?_, ?_, ?_, ?_⟩ <;> decide),
    (by refine ⟨rfl, ?_, ?_, ?_, ?_, ?_⟩ <;> decide),
    ⟨rfl, by decide, by decide, by decide, by decide, by unfold Fetches; decide, by decide, by decide⟩⟩

theorem witness_OnlyExchangesChangeTheProgram :
    Instr.pass ≠ .ex ∧ Instr.pass ≠ .err ∧ ∃ t, exec .pass (user false) = .next t := ⟨by decide, by decide, _, rfl⟩

theorem witness_UserModeIsConfined :
    (user false).cpu.m.mm = false ∧ Instr.rtcLoad 1 ≠ .ex ∧ Instr.rtcLoad 1 ≠ .err ∧
      (∃ t, exec (.rtcLoad 1) (user false) = .next t) ∧ (2 : BitVec 4) ≠ (user false).cpu.cln :=
  ⟨by decide, by decide, by decide, ⟨_, rfl⟩, by decide⟩

/-- The last byte below DBA and the first byte of DLA. -/
theorem witness_StoresStayInTheDataRange :
    Instr.stSY 0 1 0 ≠ .ex ∧ Instr.stSY 0 1 0 ≠ .err ∧ (∃ t, exec (.stSY 0 1 0) (s 1 5 (user true)) = .next t) ∧
    (8 * 0o1000 - 1) / 8 < (s 1 5 (user true)).cpu.dba.toNat ∧
    (s 1 5 (user true)).cpu.dla.toNat ≤ (8 * 0o2000) / 8 :=
  ⟨by decide, by decide, next_of_ok (q := fun t => rD t 0 == 5) (by decide), by decide, by decide⟩

/-- Other contents in the words just below DBA and at DLA. -/
theorem witness_LoadsSeeOnlyTheDataRange :
    Instr.ldSY 0 1 0 ≠ .ex ∧ Instr.ldSY 0 1 0 ≠ .err ∧
    (∀ a, (user true).cpu.dba.toNat ≤ a → a < (user true).cpu.dla.toNat →
      Memory.readWord (Memory.writeWord (Memory.writeWord [] 0o777 5) 0o2000 6) a =
        Memory.readWord (user true).mem a) ∧
    ∃ t, exec (.ldSY 0 1 0) (user true) = .next t :=
  ⟨by decide, by decide, by decide +kernel, next_of_ok (q := fun _ => true) (by decide)⟩

theorem witness_OperandsAndAddresses :
    (7 : BitVec 3) ≠ 0 ∧ (0x1FFFFF : BitVec 22).toNat < 2 ^ 21 ∧ 2 ^ 21 ≤ (0x200000 : BitVec 22).toNat ∧
    ((user false).blockAddrs 64)[63]? = some 63 ∧ ((user false).strideAddrs 2)[63]? = some 126 ∧
    ((user false).indexAddrs 7)[63]? = some 0 := by decide +kernel

theorem witness_address_modes : (user false).cpu.m.eam = false ∧ (user true).cpu.m.eam = true := by decide

theorem witness_ConstantsEnterRegisters : (user false).cpu.m.eam = false ∧ (user true).cpu.m.eam = true :=
  witness_address_modes

theorem witness_StatusWordAndClock : (user false).params.sr.wf = true := by decide

theorem witness_SharedRegisters : (cln 0 (user false)).cpu.cln = 0 ∧ (cln 15 (user false)).cpu.cln ≠ 0 := by decide

theorem witness_Semaphores :
    (user false).cpu.cln ≠ 0 ∧ (0o37 : BitVec 6).toNat < 32 ∧
    (regGet (user false).clusters (user false).cpu.cln).smIsSet 0o37 = false ∧
    (sem 0o37 (user false)).cpu.cln ≠ 0 ∧
    (regGet (sem 0o37 (user false)).clusters (sem 0o37 (user false)).cpu.cln).smIsSet 0o37 = true := by decide

theorem witness_ElementsAndVectorLength :
    ((a 3 63 (user false)).akVal 3).toNat < 64 ∧ 64 ≤ ((a 3 64 (user false)).akVal 3).toNat ∧
    ((a 3 64 (user false)).akVal 3).toNat ≤ 64 ∧ 64 < ((a 3 65 (user false)).akVal 3).toNat ∧
    isVectorInstr (.vAndSv 0 0 0) = true ∧ isVectorInstr (.stVScatter 7 7) = true ∧
    (vl 0 (user false)).cpu.vl = 0 := by decide

/-- The last word below the limit, and the largest displacement. -/
theorem witness_ScalarLoads :
    disp22 0o777 = some 0o777 ∧ disp22 0x1FFFFF = some 0x1FFFFF ∧
    Reaches (user false) false false ((user false).wordOf ((user false).scalarAddr 0 0o777)) ∧
    Reaches (user true) false false ((user true).wordOf ((user true).scalarAddr 0 0o777)) := by
  unfold Reaches
  decide

theorem witness_ScalarStores :
    disp22 0o777 = some 0o777 ∧
    Reaches (user false) false true ((user false).wordOf ((user false).scalarAddr 0 0o777)) ∧
    Reaches (user true) false true ((user true).wordOf ((user true).scalarAddr 0 0o777)) := by
  unfold Reaches
  decide

theorem witness_AbortedScalarReferences :
    disp22 0o1001 = some 0o1001 ∧ (user false).cpu.dla.toNat < (user false).wordOf ((user false).scalarAddr 0 0o1001) ∧
    (user true).cpu.dla.toNat < (user true).wordOf ((user true).scalarAddr 0 0o1001) := by decide

/-- Memory ends where the data range ends, and one word before. -/
def small (eam : Bool) : State := { user eam with params := { resetParams with memWords := 0o1777 } }

theorem witness_MemoryInstructionStops :
    (user true).wordOf ((user true).scalarAddr 0 0o1000) = (user true).cpu.dla.toNat ∧
    (small true).wordOf ((small true).scalarAddr 0 0o777) < (small true).cpu.dla.toNat ∧
    (small true).params.memWords ≤ (small true).wordOf ((small true).scalarAddr 0 0o777) ∧
    2 ^ 21 ≤ (0x200000 : BitVec 22).toNat ∧ (0o1000 : BitVec 22).toNat < 2 ^ 21 ∧
    (user false).wordOf ((user false).scalarAddr 0 (BitVec.ofNat 32 (0o1000 : BitVec 22).toNat)) =
      (user false).cpu.dla.toNat ∧
    (small false).wordOf ((small false).scalarAddr 0 (BitVec.ofNat 32 (0o777 : BitVec 22).toNat)) <
      (small false).cpu.dla.toNat ∧
    (small false).params.memWords ≤
      (small false).wordOf ((small false).scalarAddr 0 (BitVec.ofNat 32 (0o777 : BitVec 22).toNat)) ∧
    64 < (0o77 : BitVec 6).toNat + ((a 3 2 (user false)).readA 3).toNat := by decide

/-- A property of every member of a list, from a check of the list. -/
theorem forall_of_all {α : Type} {p : α → Prop} [DecidablePred p] (l : List α)
    (h : (l.all fun x => decide (p x)) = true) : ∀ x ∈ l, p x :=
  fun x hx => of_decide_eq_true (List.all_eq_true.mp h x hx)

/-- A property of some member of a list, from a check of the list. -/
theorem exists_of_any {α : Type} {p : α → Prop} [DecidablePred p] (l : List α)
    (h : (l.any fun x => decide (p x)) = true) : ∃ x ∈ l, p x := by
  obtain ⟨x, hx, hp⟩ := List.any_eq_true.mp h
  exact ⟨x, hx, of_decide_eq_true hp⟩

/-- A block of 64 words up to the last word below the limit. -/
def blockStart : State := (a 3 64 ∘ a 0 0o700) (user false)

theorem block_start_reaches (write : Bool) :
    (0 : BitVec 6).toNat + (blockStart.readA 3).toNat ≤ 64 ∧
      ReachesAll blockStart write (blockStart.blockAddrs (blockStart.readA 3).toNat) := by
  unfold ReachesAll Reaches
  refine ⟨by decide, forall_of_all _ ?_⟩
  cases write <;> decide +kernel

theorem witness_BlockLoads :
    (0 : BitVec 6).toNat + (blockStart.readA 3).toNat ≤ 64 ∧
      ReachesAll blockStart false (blockStart.blockAddrs (blockStart.readA 3).toNat) := block_start_reaches false

theorem witness_BlockStores :
    (0 : BitVec 6).toNat + (blockStart.readA 3).toNat ≤ 64 ∧
      ReachesAll blockStart true (blockStart.blockAddrs (blockStart.readA 3).toNat) := block_start_reaches true

/-- A vector of three words up to the last word below the limit; an index vector for the same words. -/
def vectorStart : State := (vl 3 ∘ a 0 0o775 ∘ v 2 [2, 0, 1]) (user false)

theorem vector_start_reaches (write : Bool) :
    vectorStart.cpu.vl ≠ 0 ∧ vectorStart.cpu.vl.toNat ≤ 64 ∧
    ReachesAll vectorStart write (vectorStart.strideAddrs (vectorStart.akVal 0)) ∧
    ReachesAll vectorStart write (vectorStart.indexAddrs 2) := by
  unfold ReachesAll Reaches
  refine ⟨by decide, by decide, forall_of_all _ ?_, forall_of_all _ ?_⟩ <;> cases write <;> decide +kernel

theorem witness_VectorLoads :
    vectorStart.cpu.vl ≠ 0 ∧ vectorStart.cpu.vl.toNat ≤ 64 ∧
    ReachesAll vectorStart false (vectorStart.strideAddrs (vectorStart.akVal 0)) ∧
    ReachesAll vectorStart false (vectorStart.indexAddrs 2) ∧ (1 : BitVec 3) ≠ 2 :=
  ⟨(vector_start_reaches false).1, (vector_start_reaches false).2.1, (vector_start_reaches false).2.2.1,
    (vector_start_reaches false).2.2.2, by decide⟩

theorem witness_VectorStores :
    vectorStart.cpu.vl ≠ 0 ∧ vectorStart.cpu.vl.toNat ≤ 64 ∧
    ReachesAll vectorStart true (vectorStart.strideAddrs (vectorStart.akVal 0)) ∧
    ReachesAll vectorStart true (vectorStart.indexAddrs 2) := vector_start_reaches true

/-- M27b: elements at the words 1775, 1777, 2001 and 2003 octal. -/
def partStart : State := (vl 4 ∘ a 0 0o775 ∘ a 2 2 ∘ v 3 [0, 2, 4, 6]) (user false)

/-- A block of one element above the limit. -/
def aboveStart : State := (a 3 1 ∘ a 0 0o1001) (user false)

theorem part_start_reaches (write : Bool) :
    partStart.cpu.vl ≠ 0 ∧ partStart.cpu.vl.toNat ≤ 64 ∧
    ReachesSome partStart write (partStart.strideAddrs (partStart.akVal 2)) ∧
    ReachesSome partStart write (partStart.indexAddrs 3) ∧
    (0o77 : BitVec 6).toNat + (aboveStart.readA 3).toNat ≤ 64 ∧
    ReachesSome aboveStart write (aboveStart.blockAddrs (aboveStart.readA 3).toNat) := by
  unfold ReachesSome Reaches
  refine ⟨by decide, by decide, ⟨forall_of_all _ ?_, exists_of_any _ ?_⟩, ⟨forall_of_all _ ?_, exists_of_any _ ?_⟩,
    by decide, ⟨forall_of_all _ ?_, exists_of_any _ ?_⟩⟩ <;> cases write <;> decide +kernel

theorem witness_PartlyAbortedStores :
    partStart.cpu.vl ≠ 0 ∧ partStart.cpu.vl.toNat ≤ 64 ∧
    ReachesSome partStart true (partStart.strideAddrs (partStart.akVal 2)) ∧
    ReachesSome partStart true (partStart.indexAddrs 3) ∧
    (0o77 : BitVec 6).toNat + (aboveStart.readA 3).toNat ≤ 64 ∧
    ReachesSome aboveStart true (aboveStart.blockAddrs (aboveStart.readA 3).toNat) := part_start_reaches true

theorem witness_PartlyAbortedLoads :
    (∀ n, partStart.errorsAt (.operand n) = []) ∧ (∀ n, aboveStart.errorsAt (.operand n) = []) ∧
    partStart.cpu.vl ≠ 0 ∧ partStart.cpu.vl.toNat ≤ 64 ∧
    ReachesSome partStart false (partStart.strideAddrs (partStart.akVal 2)) ∧
    ReachesSome partStart false (partStart.indexAddrs 3) ∧
    (0o77 : BitVec 6).toNat + (aboveStart.readA 3).toNat ≤ 64 ∧
    ReachesSome aboveStart false (aboveStart.blockAddrs (aboveStart.readA 3).toNat) :=
  ⟨fun _ => rfl, fun _ => rfl, part_start_reaches false⟩

theorem witness_ProgramOrderWithoutOverlap :
    (user false).cpu.m.bdm = false ∧ (user false).cpu.cbw = false ∧ (user false).cpu.sbo = false ∧
      ∃ t, exec .cmr (user false) = .next t := ⟨by decide, by decide, by decide, _, rfl⟩

/-- A nonzero VL of at most 64, as the statements about vector instructions ask. -/
theorem witness_vector_length :
    (vl 64 (user false)).cpu.vl ≠ 0 ∧ (vl 64 (user false)).cpu.vl.toNat ≤ 64 ∧ (vl 1 (user false)).cpu.vl ≠ 0 := by
  decide

theorem witness_VectorIntegerArithmetic : (vl 64 (user false)).cpu.vl ≠ 0 := witness_vector_length.1
theorem witness_FloatSums : (vl 64 (user false)).cpu.vl ≠ 0 := witness_vector_length.1
theorem witness_FloatProducts :
    (vl 64 (user false)).cpu.vl ≠ 0 ∧ (1 : BitVec 3) ≠ 0 ∧ (7 : BitVec 3) ≠ 0 :=
  ⟨witness_vector_length.1, by decide⟩
/-- 1.0, and the least and the greatest operand. -/
theorem witness_DivideSequenceReachesTheReciprocal :
    ([0x4001800000000000, 0x2003800000000000, 0x5FFFFFFFFFFFFFFF] : List Word).all (fun w =>
      let t := s 2 w (user false)
      decide (2 ^ 47 ≤ fpCoef (regGet t.cpu.s 2) ∧ 0o20003 ≤ fpExp (regGet t.cpu.s 2) ∧
        fpExp (regGet t.cpu.s 2) ≤ 0o57777)) = true := by decide
theorem witness_ReciprocalInstructions : (vl 64 (user false)).cpu.vl ≠ 0 := witness_vector_length.1

/-- The operands of `IterOk`: 1.0 and its reciprocal approximation, whatever that is, are normalized and in range. -/
theorem witness_IterOk :
    let inRange := fun (x : Word) => 2 ^ 47 ≤ fpCoef x ∧ 0o20000 ≤ fpExp x ∧ fpExp x ≤ 0o57777
    inRange 0x4001800000000000 ∧ inRange (recipWord 0x4001800000000000).1 := by
  refine ⟨by decide, ?_⟩
  have hr : recipInRange 0x4001800000000000 = true := by decide
  have hf : forceNormal 0x4001800000000000 = 0x4001800000000000 := by decide
  have hx : fpExp 0x4001800000000000 = 0o40001 := by decide
  simp only [recipWord, hr, if_true, fpCoef_fpPack, fpExp_fpPack, frecip, hf, Bool.true_and]
  split
  · decide
  · rename_i h
    simp only [Bool.not_eq_true', Bool.not_eq_false, recipOk, Bool.and_eq_true, decide_eq_true_eq, hx] at h
    obtain ⟨⟨⟨-, h1⟩, h2⟩, -⟩ := h
    exact ⟨h1, by omega⟩

theorem witness_VectorLogic : (vl 64 (user false)).cpu.vl ≠ 0 := witness_vector_length.1
theorem witness_BitCounts : (vl 64 (user false)).cpu.vl ≠ 0 := witness_vector_length.1

theorem witness_IntegerProductsOf166 :
    (vl 64 (user true)).cpu.vl ≠ 0 ∧ 0x7FFFFFFF80000000 < 2 ^ 63 ∧ 0x7FFFFFFF80000000 % 2 ^ 31 = 0 ∧
      0xFFFFFFFF0000 < 2 ^ 48 ∧ 0xFFFFFFFF0000 % 2 ^ 16 = 0 := by decide

/-- A result register other than the tested one, and the same. -/
theorem witness_MaskTests :
    (vl 64 (user false)).cpu.vl ≠ 0 ∧ (vl 64 (user false)).cpu.vl.toNat ≤ 64 ∧ (1 : BitVec 3) ≠ 2 :=
  ⟨witness_vector_length.1, witness_vector_length.2.1, by decide⟩

theorem witness_ShiftsByRegister :
    (vl 64 (user false)).cpu.vl ≠ 0 ∧ (vl 64 (user false)).cpu.vl.toNat ≤ 64 ∧ (1 : BitVec 3) ≠ 2 := witness_MaskTests

/-- Zero, positive and negative contents of A0 and S0. -/
theorem witness_Branches :
    (regGet (user false).cpu.a 0).toNat % 2 ^ addrWidth false = 0 ∧
    (regGet (a 0 1 (user false)).cpu.a 0).toNat % 2 ^ addrWidth false ≠ 0 ∧
    (regGet (user false).cpu.s 0).toInt = 0 ∧ (regGet (s 0 1 (user false)).cpu.s 0).toInt ≠ 0 ∧
    0 ≤ (regGet (s 0 0x7FFFFFFFFFFFFFFF (user false)).cpu.s 0).toInt ∧
    (regGet (s 0 0x8000000000000000 (user false)).cpu.s 0).toInt < 0 := by decide

/-- A0 and B registers at both sides of the boundary. -/
theorem witness_BranchesOnSignAndThroughB :
    (regGet (b 5 0xFFFFFF (user true)).cpu.b 5).toNat % 2 ^ addrWidth true < 2 ^ 24 ∧
    2 ^ 24 ≤ (regGet (b 5 0x1000000 (user true)).cpu.b 5).toNat % 2 ^ addrWidth true ∧
    2 * ((regGet (a 0 0x7FFFFF (user false)).cpu.a 0).toNat % 2 ^ addrWidth false) < 2 ^ addrWidth false ∧
    2 ^ addrWidth false ≤ 2 * ((regGet (a 0 0x800000 (user false)).cpu.a 0).toNat % 2 ^ addrWidth false) := by decide

/-- The package of P5 can be loaded. -/
theorem witness_CanExchange :
    CanExchange (leaving (monitorPackage 64)) ∧ (leaving (monitorPackage 64)).params.wf = true ∧
      (leaving (monitorPackage 64)).cpu.deadstart = false := by
  unfold CanExchange
  decide +kernel

theorem witness_ExitsExchange :
    CanExchange (leaving (monitorPackage 64)) ∧ (leaving (monitorPackage 64)).params.wf = true ∧
      (leaving (monitorPackage 64)).cpu.deadstart = false := witness_CanExchange

theorem witness_ExchangeLoadsThePackage : CanExchange (leaving (monitorPackage 64)) := witness_CanExchange.1

theorem witness_ExchangeStoresTheProgram :
    (leaving (monitorPackage 64)).params.wf = true ∧ (leaving (monitorPackage 64)).cpu.deadstart = false ∧
      ∃ t, (leaving (monitorPackage 64)).exchangeSequence = .next t :=
  ⟨by decide, by decide, next_of_ok (q := fun _ => true) (by decide +kernel)⟩

theorem witness_ExchangeBackRestoresTheProgram :
    let s := leaving (monitorPackage 64)
    s.params.wf = true ∧ s.cpu.deadstart = false ∧ s.cpu.vl.toNat ≤ 64 ∧ s.cpu.cln.toNat ≤ s.params.ncluster ∧
    Storable s s.cpu.iba ∧ Storable s s.cpu.ila ∧ Storable s s.cpu.dba ∧ Storable s s.cpu.dla ∧
    s.packageErrors 16 = [] ∧ ∃ t, s.exchangeSequence = .next t ∧ t.cpu.xa = s.cpu.xa := by
  refine ⟨by decide, by decide, by decide, by decide, by unfold Storable; decide, by unfold Storable; decide,
    by unfold Storable; decide, by unfold Storable; decide, by decide, ?_⟩
  have h : ok (leaving (monitorPackage 64)).exchangeSequence
      (fun t => decide (t.cpu.xa = (leaving (monitorPackage 64)).cpu.xa)) = true := by decide +kernel
  obtain ⟨t, ht⟩ := next_of_ok h
  rw [ht] at h
  exact ⟨t, ht, of_decide_eq_true h⟩

/-- Distinct CPUs, channel 2 requesting, which may interrupt CPUs 0 and 2 that are able, CPU 2 with SEI; and none able. -/
theorem witness_ChannelInterruptIsRouted :
    let able := fun (s : State) (c : Cpu) => c.started = true ∧ c.deadstart = false ∧ c.m.mm = false ∧
      ∃ ch ∈ s.channels, ch.intFlag = true ∧ c.pn ∈ ch.serves
    (let s := { chan 2 (fun c => { c with intFlag := true, serves := [0, 2] }) (user false) with
        others := [Cpu.reset 1 false, { Cpu.reset 2 true with m := { (user false).cpu.m with sei := true } }] };
      ((s.cpu :: s.others).map Cpu.pn).Nodup ∧ (∃ c ∈ s.cpu :: s.others, able s c) ∧
      ∃ d ∈ s.cpu :: s.others, able s d ∧ d.m.sei = true) ∧
    (let s := monitor (user false);
      ((s.cpu :: s.others).map Cpu.pn).Nodup ∧ ¬ ∃ c ∈ s.cpu :: s.others, able s c) := by decide

/-- X7: a running CPU; a hold on a semaphore that is 1, and on one that is 0 again. -/
theorem witness_HoldsAndDeadlock :
    let s := cpu (fun c => { c with holding := some 5 }) (monitor (user false))
    s.deliver = .ok s ∧ s.cpu.running = true ∧ s.atBoundary.cpu.f.any = false ∧ s.cpu.holding = some 5 ∧
    s.cpu.cln ≠ 0 ∧ (5 : BitVec 6).toNat < 32 ∧ (regGet s.clusters s.cpu.cln).smIsSet 5 = false ∧
    (sem 5 s).deliver = .ok (sem 5 s) ∧ (sem 5 s).atBoundary.cpu.f.any = false ∧
    (regGet (sem 5 s).clusters (sem 5 s).cpu.cln).smIsSet 5 = true :=
  by refine ⟨rfl, ?_, ?_, ?_, ?_, ?_, ?_, rfl, ?_, ?_⟩ <;> decide

/-- One CPU whose instruction at P is a jump to itself, its programmable clock reloading at every tick. -/
def spinning (rtc : Word) : State :=
  { cpu (fun c => { c with ii := 1, pc := 1, pciRequest := true, ipiRequest := true })
      (monitor (fetching false 0o006000 0 0)) with
    rtc := rtc, others := [], params := { resetParams with ncpu := 1 } }

/-- The real-time clock after `n` ticks. -/
def ticks (n : Nat) : Word :=
  match n with
  | 0 => 0
  | k + 1 => ticks k + 1

theorem spinning_fetches (rtc : Word) (n : Nat) (h : n < 2) :
    (spinning rtc).fetchParcel n = .ok (some (if n = 0 then 0o006000 else 0, spinning rtc)) := by
  have hf : ∀ n, n < 2 → Fetches (spinning 0) ((spinning 0).cpu.p + BitVec.ofNat 24 n) := by
    unfold Fetches; decide
  have hp : ∀ n, n < 2 → (spinning 0).parcelAt ((spinning 0).cpu.p + BitVec.ofNat 24 n) =
      if n = 0 then 0o006000 else 0 := by decide
  rw [fetchParcel_clean (s := spinning rtc) (hf n h) rfl]
  exact congrArg (fun p => Except.ok (some (p, spinning rtc))) (hp n h)

theorem spinning_acts (rtc : Word) : (spinning rtc).act = .next (spinning rtc) := by
  have ha : (spinning rtc).atBoundary = spinning rtc := rfl
  have hf : (spinning rtc).cpu.f.any = false := rfl
  have hh : (spinning rtc).cpu.holding = none := rfl
  have hs : (spinning rtc).cpu.started = true := rfl
  have hn : (spinning rtc).cpu.deadstart = false := rfl
  have hd : decode (spinning rtc).cpu.m.eam 0o006000 0 0 = some (.jExp 0) :=
    (by decide : decode false 0o006000 0 0 = some (.jExp 0))
  have h2 : instrLength 0o006000 (spinning rtc).cpu.m.eam = 2 := rfl
  simp only [State.act, State.boundary, State.issue, ha, hf, hh, hs, hn, Bool.not_true, Bool.false_eq_true, if_false]
  simp only [State.fetchAndIssue, State.withParcel, spinning_fetches rtc 0 (by decide),
    spinning_fetches rtc 1 (by decide), orStop, if_true, h2, OfNat.ofNat_ne_one, one_ne_zero, if_false,
    State.issueDecoded, hd]
  rfl

theorem spinning_step (rtc : Word) :
    ({ spinning rtc with agenda := [[.tick]] } : State).deliver = .ok (spinning (rtc + 1)) ∧
      step { spinning rtc with agenda := [[.tick]] } = .next (spinning (rtc + 1)) := by
  have h : ({ spinning rtc with agenda := [[.tick]] } : State).deliver = .ok (spinning (rtc + 1)) := rfl
  refine ⟨h, ?_⟩
  simp only [step, cycle, h, orStop]
  exact spinning_acts _

/-- A fair run: the CPU jumps to itself for ever while the clocks tick. -/
theorem witness_FairRunsReachEveryCpu :
    let w : World := fun _ => [.tick]
    let run := fun n => spinning (ticks n)
    let c := (spinning 0).cpu
    Run w run ∧ Fair w run ∧ (run 0).Inv ∧ c ∈ (run 0).cpus ∧ c.running = true ∧ c.holding = none ∧
    (∀ m, 0 ≤ m → (∀ xa, Event.deadstart c.pn xa ∉ w m) ∧ ∀ reg info, Event.parityError c.pn reg info ∉ w m) ∧
    c.ipiRequest = true ∧ c.pciRequest = true := by
  refine ⟨fun n => (spinning_step _).2, ⟨?_, ?_, fun n => ⟨n, by simp⟩⟩, ?_, by decide, by decide, by decide, by simp,
    by decide, by decide⟩
  · intro n c hc _
    have h : c = (spinning (ticks n)).cpu := by simpa [State.cpus, spinning] using hc
    subst h
    exact ⟨n, _, le_refl n, (spinning_step _).1, rfl⟩
  · intro n c hc ha
    have h : (spinning (ticks n)).channels.all (fun c => !c.active) = true := rfl
    rw [List.all_eq_true] at h
    simpa [ha] using h c hc
  · refine ⟨?_, ?_, ?_, ?_, ?_, ?_, ?_, ?_, ?_, ?_, ?_⟩ <;> decide

theorem witness_PrivilegedInUserModePasses : (user false).cpu.m.mm = false := by decide

theorem witness_ChannelControl :
    (monitor (user false)).cpu.m.mm = true ∧
    (monitor (user false)).channel ((monitor (user false)).ajVal 0) = some (Channel.reset 0 .input) ∧
    (Channel.reset 0 .input).active = false ∧
    (let s := chan 0 (fun c => { c with active := true }) (monitor (user false));
      (s.channel (s.ajVal 0)).map Channel.active = some true) ∧
    (a 1 4 (monitor (user false))).channel ((a 1 4 (monitor (user false))).ajVal 1) = none := by decide

theorem witness_MonitorControl :
    (monitor (user false)).cpu.m.mm = true ∧ (monitor (user false)).params.xaSel = .addr ∧
    ((a 1 0xFFF (monitor (user false))).ajVal 1).toNat < 2 ^ 12 ∧
    2 ^ 12 ≤ ((a 1 0x1000 (monitor (user false))).ajVal 1).toNat ∧
    ({ resetParams with xaSel := .low8 } : Params).xaSel = .low8 ∧
    ((a 1 0xFF (monitor (user false))).ajVal 1).toNat < 2 ^ 8 ∧
    2 ^ 8 ≤ ((a 1 0x100 (monitor (user false))).ajVal 1).toNat ∧
    ((s 1 0xFFFFFFFF (monitor (user false))).sjVal 1).toNat < 2 ^ 32 ∧
    2 ^ 32 ≤ ((s 1 0x100000000 (monitor (user false))).sjVal 1).toNat := by decide

/-- X-mode: CPUs 3, 4 and 0 (the issuing one), cluster 7; Y-mode: cluster 16. -/
theorem witness_MonitorControl_other_CPUs :
    (user false).cpu.m.eam = false ∧ (3 : BitVec 3).toNat < (user false).params.ncpu ∧
    (3 : BitVec 3).toNat ≠ (user false).cpu.pn.toNat ∧ (user false).params.ncpu ≤ (4 : BitVec 3).toNat ∧
    (0 : BitVec 3).toNat = (user false).cpu.pn.toNat ∧ (7 : BitVec 3).toNat ≤ (user false).params.ncluster ∧
    (user false).params.ncluster < 16 ∧ (user true).cpu.m.eam = true ∧
    (user false).params.ncluster < ((a 1 16 (user true)).ajVal 1).toNat := by decide

theorem witness_ChannelReads :
    (let s := chan 2 (fun c => { c with intFlag := true }) (user false);
      s.channels = [Channel.reset 0 .input, Channel.reset 1 .output] ++
        { Channel.reset 2 .input with intFlag := true } :: [Channel.reset 3 .output] ∧
      ∀ d ∈ [Channel.reset 0 .input, Channel.reset 1 .output], d.intFlag = false) ∧
    (∀ d ∈ (user false).channels, d.intFlag = false) ∧ (1 : BitVec 3) ≠ 0 ∧
    (user false).channel ((user false).ajVal 1) = some (Channel.reset 0 .input) ∧
    (a 1 4 (user false)).channel ((a 1 4 (user false)).ajVal 1) = none := by decide

/-- Clocks at 1 and above, a clock at 0; an input channel at its limit, and one with a word to go to the last word of
memory. -/
theorem witness_TicksAndChannelWords :
    (∀ c ∈ (cpu (fun c => { c with pc := 1 }) (user false)).cpus, c.pc ≠ 0) ∧
    (∃ c ∈ (cpu (fun c => { c with pc := 0 }) (user false)).cpus, c.pc = 0) ∧
    (let s := chan 2 (fun c => { c with active := true }) (user false);
      s.channel 2 = some { Channel.reset 2 .input with active := true } ∧
      ({ Channel.reset 2 .input with active := true } : Channel).ca = 0) ∧
    (let s := chan 2 (fun c => { c with active := true, ca := 0x1FFFFFF, cl := 0x2000000 }) (user false);
      s.channel 2 = some { Channel.reset 2 .input with active := true, ca := 0x1FFFFFF, cl := 0x2000000 } ∧
      (0x1FFFFFF : Addr) ≠ 0x2000000 ∧ (0x1FFFFFF : Addr).toNat < s.params.memWords) := by decide

end Sys2Proof.Tests
end

section
/-! Operand forms and effective addresses (00_scope.md R13, R14; 42_memory_transfer.md R257, R262, R270, R279 to R282). -/

namespace Sys2Proof.Machine

open Sys2Proof

/-! ## Special operand values (00_scope.md R14) -/

section
variable (s : State)

theorem State.ahVal_of_ne {r : BitVec 3} (hr : r ≠ 0) : s.ahVal r = s.readA r := if_neg hr
theorem State.ajVal_of_ne {r : BitVec 3} (hr : r ≠ 0) : s.ajVal r = s.readA r := if_neg hr
theorem State.akVal_of_ne {r : BitVec 3} (hr : r ≠ 0) : s.akVal r = s.readA r := if_neg hr
theorem State.sjVal_of_ne {r : BitVec 3} (hr : r ≠ 0) : s.sjVal r = regGet s.cpu.s r := if_neg hr
theorem State.skVal_of_ne {r : BitVec 3} (hr : r ≠ 0) : s.skVal r = regGet s.cpu.s r := if_neg hr

/-- An A register reads modulo 2^AW (R13). -/
theorem State.readA_toNat (i : BitVec 3) :
    (s.readA i).toNat = (regGet s.cpu.a i).toNat % 2 ^ addrWidth s.cpu.m.eam := amask_toNat _ _

end

/-! ## Sums modulo 2^AW (R13) -/

/-- The carry out of the 32-bit adder is beyond the mask in either mode. -/
theorem mod_two_pow_mod_addrWidth (eam : Bool) (n : Nat) : n % 2 ^ 32 % 2 ^ addrWidth eam = n % 2 ^ addrWidth eam :=
  Nat.mod_mod_of_dvd n (Nat.pow_dvd_pow 2 (addrWidth_le eam))

theorem amask_add_toNat (eam : Bool) (x y : Addr) :
    (amask eam (x + y)).toNat = (x.toNat + y.toNat) % 2 ^ addrWidth eam := by
  rw [amask_toNat, BitVec.toNat_add, mod_two_pow_mod_addrWidth]

/-- The address of an element whose offset from (A0) is `n`, held modulo 2^32. -/
theorem amask_readA_add_toNat (s : State) (i : BitVec 3) (y : Addr) (n : Nat) (hy : y.toNat = n % 2 ^ 32) :
    (amask s.cpu.m.eam (s.readA i + y)).toNat
      = ((regGet s.cpu.a i).toNat + n) % 2 ^ addrWidth s.cpu.m.eam := by
  rw [amask_add_toNat, s.readA_toNat, hy, Nat.mod_add_mod, Nat.add_mod, mod_two_pow_mod_addrWidth, ← Nat.add_mod]

/-! ## Displacements (R262, decision D12) -/

theorem getLsbD_21_eq (jkm : BitVec 22) : jkm.getLsbD 21 = decide (2 ^ 21 ≤ jkm.toNat) := by
  rw [← BitVec.msb_eq_getLsbD_last jkm, BitVec.msb_eq_decide]

theorem disp22_of_lt {jkm : BitVec 22} (h : jkm.toNat < 2 ^ 21) : disp22 jkm = some (BitVec.ofNat 32 jkm.toNat) := by
  rw [disp22, getLsbD_21_eq, decide_eq_false (by omega), BitVec.ofNat_toNat]
  rfl

theorem disp22_of_le {jkm : BitVec 22} (h : 2 ^ 21 ≤ jkm.toNat) : disp22 jkm = none := by
  rw [disp22, getLsbD_21_eq, decide_eq_true h]
  rfl

/-! ## Element addresses (R270, R279 to R282) -/

/-- What a list indexed by element number holds at `e` is its function of `e`. -/
theorem eq_of_getElem?_map_range {α : Type} {f : Nat → α} {n e : Nat} {x : α}
    (h : ((List.range n).map f)[e]? = some x) : x = f e := by
  obtain ⟨k, hk, rfl⟩ : ∃ k, (List.range n)[e]? = some k ∧ f k = x := by simpa using h
  rw [(List.getElem?_eq_some_iff.mp hk).2.symm, List.getElem_range]

variable {s : State} {e : Nat} {ea : Addr}

theorem blockAddrs_toNat {count : Nat} (h : (s.blockAddrs count)[e]? = some ea) :
    ea.toNat = ((regGet s.cpu.a 0).toNat + e) % 2 ^ addrWidth s.cpu.m.eam := by
  rw [eq_of_getElem?_map_range h]
  exact amask_readA_add_toNat s 0 _ e (BitVec.toNat_ofNat e 32)

theorem strideAddrs_toNat {d : Addr} (h : (s.strideAddrs d)[e]? = some ea) :
    ea.toNat = ((regGet s.cpu.a 0).toNat + e * d.toNat) % 2 ^ addrWidth s.cpu.m.eam := by
  rw [eq_of_getElem?_map_range h]
  refine amask_readA_add_toNat s 0 _ _ ?_
  rw [BitVec.toNat_mul, BitVec.toNat_ofNat, Nat.mod_mul_mod]

theorem indexAddrs_toNat {k : BitVec 3} (h : (s.indexAddrs k)[e]? = some ea) :
    ea.toNat
      = ((regGet s.cpu.a 0).toNat + (s.velem k (BitVec.ofNat 6 e)).toNat) % 2 ^ addrWidth s.cpu.m.eam := by
  rw [eq_of_getElem?_map_range h]
  exact amask_readA_add_toNat s 0 _ _ (BitVec.toNat_setWidth 32 _)

/-- Settles O13: the special values by definition, the other operands and every address from the mask as a remainder. -/
theorem operandsAndAddresses : Obligations.OperandsAndAddresses := by
  intro s r h k d jkm count e
  refine ⟨rfl, rfl, rfl, rfl, rfl, fun hr => ?_, amask_add_toNat _ _ _, disp22_of_lt, disp22_of_le,
    by simp [State.blockAddrs], by simp [State.strideAddrs], by simp [State.indexAddrs],
    fun _ => blockAddrs_toNat, fun _ => strideAddrs_toNat, fun _ => indexAddrs_toNat⟩
  rw [s.ahVal_of_ne hr, s.ajVal_of_ne hr, s.akVal_of_ne hr, s.sjVal_of_ne hr, s.skVal_of_ne hr]
  exact ⟨s.readA_toNat r, rfl, rfl, rfl, rfl⟩

end Sys2Proof.Machine
end

section
/-! The package image (10_state.md R56): what a field reads after a field was put, under an admissible layout, and what
an image read from words is, word by word. -/

namespace Sys2Proof

/-! ## Admissible layouts (R56) -/

/-- A slot lies within the 1024 bits of the image, and a field of it fits a word. -/
def Slot.Fits (sl : Slot) : Prop := sl.width ≤ 64 ∧ sl.start + sl.width ≤ 1024

theorem Slot.disjoint_comm (a b : Slot) : a.disjoint b = b.disjoint a := Bool.or_comm _ _

theorem XPField.mem_all (f : XPField) : f ∈ XPField.all := by
  cases f with
  | flag n => cases n <;> decide
  | mode n => cases n <;> decide
  | a i => exact (by decide : ∀ i : BitVec 3, XPField.a i ∈ XPField.all) i
  | s i => exact (by decide : ∀ i : BitVec 3, XPField.s i ∈ XPField.all) i
  | _ => decide

theorem XPField.nodup_all : XPField.all.Nodup := by decide

section
variable {l : XPLayout} {w : Nat} (h : l.wf w = true)
include h

/-- An admissible layout lists every field with its slot. -/
theorem XPLayout.mem_slot (f : XPField) : (f, l.slot f) ∈ l := by
  simp only [XPLayout.wf, Bool.and_eq_true, decide_eq_true_eq] at h
  obtain ⟨⟨⟨hall, -⟩, -⟩, -⟩ := h
  have hf : f ∈ l.map (·.1) := hall ▸ f.mem_all
  obtain ⟨e, he, rfl⟩ := List.mem_map.mp hf
  cases hfind : l.find? (fun x => x.1 == e.1) with
  | none => simpa using List.find?_eq_none.mp hfind e he
  | some d =>
    have hd : d.1 = e.1 := by simpa using List.find?_some hfind
    rw [XPLayout.slot, hfind, ← hd]
    exact List.mem_of_find?_eq_some hfind

theorem XPLayout.slot_fits (f : XPField) : (l.slot f).Fits := by
  have hmem := XPLayout.mem_slot h f
  simp only [XPLayout.wf, Bool.and_eq_true, decide_eq_true_eq] at h
  obtain ⟨⟨⟨-, hin⟩, -⟩, -⟩ := h
  have hf := List.all_eq_true.mp hin _ hmem
  simp only [decide_eq_true_eq] at hf
  unfold Slot.Fits Slot.start
  omega

theorem XPLayout.slot_disjoint {f g : XPField} (hfg : f ≠ g) : (l.slot f).disjoint (l.slot g) = true := by
  have hf := XPLayout.mem_slot h f
  have hg := XPLayout.mem_slot h g
  simp only [XPLayout.wf, Bool.and_eq_true, decide_eq_true_eq] at h
  obtain ⟨-, hd⟩ := h
  have hsymm : Std.Symm fun a b : XPField × Slot => a.2.disjoint b.2 = true :=
    ⟨fun a b hab => (Slot.disjoint_comm b.2 a.2).trans hab⟩
  exact hd.forall hf hg fun e => hfg (congrArg Prod.fst e)

/-- A field whose width the spec fixes has that width. -/
theorem XPLayout.slot_width {f : XPField} {n : Nat} (hn : f.width? = some n) : (l.slot f).width = n := by
  have hmem := XPLayout.mem_slot h f
  simp only [XPLayout.wf, Bool.and_eq_true, decide_eq_true_eq] at h
  obtain ⟨⟨-, hw⟩, -⟩ := h
  simpa [hn] using List.all_eq_true.mp hw _ hmem

/-- A base or limit field has the width BLWidth. -/
theorem XPLayout.slot_width_base {f : XPField} (hf : f.isBaseLimit = true) : (l.slot f).width = w := by
  have hmem := XPLayout.mem_slot h f
  simp only [XPLayout.wf, Bool.and_eq_true, decide_eq_true_eq] at h
  obtain ⟨⟨-, hw⟩, -⟩ := h
  have hn : f.width? = none := by cases f <;> first | rfl | cases hf
  simpa [hn, hf] using List.all_eq_true.mp hw _ hmem

end

end Sys2Proof

namespace Sys2Proof.Machine

open Sys2Proof

/-! ## Slots of an image -/

theorem getLsbD_slotMask (sl : Slot) (i : Nat) :
    (slotMask sl).getLsbD i = decide (i < 1024 ∧ sl.start ≤ i ∧ i < sl.start + sl.width) := by
  simp only [slotMask, BitVec.getLsbD_shiftLeft, BitVec.getLsbD_ofNat, Nat.testBit_two_pow_sub_one, ← decide_not,
    ← Bool.decide_and]
  exact decide_eq_decide.mpr (by omega)

/-- Reading a slot gives its bits. -/
theorem getLsbD_imageGet {sl : Slot} (h : sl.Fits) (img : PackageImage) (i : Nat) :
    (imageGet img sl).getLsbD i = (decide (i < sl.width) && img.getLsbD (sl.start + i)) := by
  obtain ⟨hw, he⟩ := h
  simp only [imageGet, BitVec.getLsbD_setWidth, BitVec.getLsbD_ushiftRight, BitVec.getLsbD_and, getLsbD_slotMask]
  by_cases hi : i < sl.width
  · simp [show i < 64 by omega, show sl.start + i < 1024 by omega, hi]
  · simp [hi]

/-- Storing into a slot changes its bits alone. -/
theorem getLsbD_imagePut (img : PackageImage) (sl : Slot) (v : Word) (i : Nat) :
    (imagePut img sl v).getLsbD i =
      if i < 1024 ∧ sl.start ≤ i ∧ i < sl.start + sl.width then v.getLsbD (i - sl.start) else img.getLsbD i := by
  simp only [imagePut, BitVec.getLsbD_or, BitVec.getLsbD_and, BitVec.getLsbD_not, BitVec.getLsbD_shiftLeft,
    BitVec.getLsbD_setWidth, getLsbD_slotMask]
  split
  · rename_i h
    simp [h, show i - sl.start < 1024 by omega, show ¬ i < sl.start by omega]
  · rename_i h
    by_cases hi : i < 1024
    · have hout : (decide (sl.start ≤ i) && decide (i < sl.start + sl.width)) = false := by
        rw [← Bool.decide_and]
        exact decide_eq_false (by omega)
      simp [hi, hout]
    · simp [hi, BitVec.getLsbD_of_ge _ _ (Nat.le_of_not_lt hi)]

/-- A slot reads what was stored in it, as much of it as the slot is wide. -/
theorem imageGet_imagePut_same {sl : Slot} (h : sl.Fits) (img : PackageImage) (v : Word) :
    (imageGet (imagePut img sl v) sl).toNat = v.toNat % 2 ^ sl.width := by
  apply Nat.eq_of_testBit_eq
  intro i
  have hb := getLsbD_imageGet h (imagePut img sl v) i
  rw [getLsbD_imagePut] at hb
  rw [Nat.testBit_mod_two_pow, BitVec.testBit_toNat, BitVec.testBit_toNat, hb]
  by_cases hi : i < sl.width
  · have := h.2
    simp [hi, show sl.start + i < 1024 by omega]
  · simp [hi]

/-- A slot that shares no bit with the one stored into reads as before. -/
theorem imageGet_imagePut_disjoint {sl tl : Slot} (h : sl.Fits) (hd : sl.disjoint tl = true) (img : PackageImage)
    (v : Word) : imageGet (imagePut img tl v) sl = imageGet img sl := by
  apply BitVec.eq_of_getLsbD_eq
  intro i _
  rw [getLsbD_imageGet h, getLsbD_imageGet h, getLsbD_imagePut]
  simp only [Slot.disjoint, Bool.or_eq_true, decide_eq_true_eq] at hd
  by_cases hi : i < sl.width
  · rw [if_neg (by omega)]
  · simp [hi]

/-! ## Fields put into an image -/

section
variable {l : XPLayout} {w : Nat} (h : l.wf w = true)
include h

/-- A field that is not put reads as before. -/
theorem readField_packFields_of_not_mem (c : Cpu) (grain : Nat) {f : XPField} {fs : List XPField} (hf : f ∉ fs)
    (img : PackageImage) : readField l (c.packFields l grain fs img) f = readField l img f := by
  induction fs generalizing img with
  | nil => rfl
  | cons g rest ih =>
    obtain ⟨hfg, hrest⟩ := List.ne_and_not_mem_of_not_mem_cons hf
    rw [Cpu.packFields, ih hrest]
    cases c.field grain g with
    | none => rfl
    | some v => exact imageGet_imagePut_disjoint (XPLayout.slot_fits h f) (XPLayout.slot_disjoint h hfg) img v

/-- A field that is put reads what the CPU holds for it. -/
theorem readField_packFields (c : Cpu) (grain : Nat) {f : XPField} {fs : List XPField} (hf : f ∈ fs)
    (hfs : fs.Nodup) {v : Word} (hv : c.field grain f = some v) (img : PackageImage) :
    (readField l (c.packFields l grain fs img) f).toNat = v.toNat % 2 ^ (l.slot f).width := by
  induction fs generalizing img with
  | nil => cases hf
  | cons g rest ih =>
    obtain ⟨hg, hrest⟩ := List.nodup_cons.mp hfs
    rw [Cpu.packFields]
    rcases List.mem_cons.mp hf with rfl | hf
    · rw [readField_packFields_of_not_mem h c grain hg, hv]
      exact imageGet_imagePut_same (XPLayout.slot_fits h f) img v
    · exact ih hf hrest _

end

/-! ## Images as sixteen words -/

/-- The image whose word `k` is `w k`, for the first `n` words: the common form of `Memory.readImage`,
`State.drawnImage` and `State.deliveredImage`. -/
def wordsImage (w : Nat → Word) (n : Nat) : PackageImage :=
  match n with
  | 0 => 0
  | k + 1 => wordsImage w k ||| ((w k).setWidth 1024 <<< (64 * k))

theorem readImage_eq_wordsImage (m : Memory) (a n : Nat) :
    Memory.readImage m a n = wordsImage (fun k => Memory.readWord m (a + k)) n := by
  induction n with
  | zero => rfl
  | succ k ih => rw [Memory.readImage, ih]; rfl

theorem deliveredImage_eq_wordsImage (s : State) (img : PackageImage) (n : Nat) :
    s.deliveredImage img n =
      wordsImage (fun k => delivered (s.errorsAt (.package k)) (s.drawAt (16 + k)) (imageWord img k)) n := by
  induction n with
  | zero => rfl
  | succ k ih => rw [State.deliveredImage, ih]; rfl

theorem wordsImage_congr {w v : Nat → Word} {n : Nat} (h : ∀ k, k < n → w k = v k) :
    wordsImage w n = wordsImage v n := by
  induction n with
  | zero => rfl
  | succ k ih => rw [wordsImage, ih fun j hj => h j (by omega), h k (by omega)]; rfl

theorem getLsbD_wordsImage (w : Nat → Word) (n i : Nat) (hn : n ≤ 16) :
    (wordsImage w n).getLsbD i = (decide (i < 64 * n) && (w (i / 64)).getLsbD (i % 64)) := by
  induction n with
  | zero => simp [wordsImage]
  | succ k ih =>
    rw [wordsImage, BitVec.getLsbD_or, ih (by omega), BitVec.getLsbD_shiftLeft, BitVec.getLsbD_setWidth]
    rcases Nat.lt_trichotomy (i / 64) k with hi | rfl | hi
    · simp [show i < 64 * k by omega, show i < 64 * (k + 1) by omega]
    · simp [show ¬ i < 64 * (i / 64) by omega, show i < 64 * (i / 64 + 1) by omega, show i < 1024 by omega,
        show i - 64 * (i / 64) = i % 64 by omega, show i % 64 < 1024 by omega]
    · simp [show ¬ i < 64 * k by omega, show ¬ i < 64 * (k + 1) by omega,
        BitVec.getLsbD_of_ge (w k) (i - 64 * k) (by omega)]

/-- Sixteen words put together are the image they came from. -/
theorem wordsImage_imageWord (img : PackageImage) : wordsImage (imageWord img) 16 = img := by
  apply BitVec.eq_of_getLsbD_eq
  intro i hi
  rw [getLsbD_wordsImage _ _ _ le_rfl, imageWord, BitVec.getLsbD_extractLsb', Nat.div_add_mod]
  simp [hi, Nat.mod_lt]

/-! ## A package in memory -/

/-- A word of the package after an image was stored. -/
theorem readWord_writeImage (s : State) (a : Nat) (img : PackageImage) {k n : Nat} (hk : k < n) :
    Memory.readWord (s.writeImage a img n).mem (a + k) = imageWord img k := by
  induction n with
  | zero => omega
  | succ j ih =>
    rw [State.writeImage, State.memWrite_mem]
    by_cases hkj : k = j
    · rw [hkj, readWord_writeWord_same]
    · rw [readWord_writeWord_ne _ _ _ _ (by omega), ih (by omega)]

/-- The image in memory after an image was stored is that image. -/
theorem readImage_writeImage (s : State) (a : Nat) (img : PackageImage) :
    Memory.readImage (s.writeImage a img 16).mem a 16 = img := by
  rw [readImage_eq_wordsImage, wordsImage_congr fun k hk => readWord_writeImage s a img hk, wordsImage_imageWord]

/-- Storing an image changes no byte outside its words. -/
theorem readByte_writeImage (s : State) (a : Nat) (img : PackageImage) (n x : Nat) (hx : ¬ (a ≤ x / 8 ∧ x / 8 < a + n)) :
    Memory.readByte (s.writeImage a img n).mem x = Memory.readByte s.mem x := by
  induction n with
  | zero => rfl
  | succ k ih =>
    rw [State.writeImage, State.memWrite_mem, readByte_writeWord_out _ _ _ _ (by omega), ih (by omega)]

/-! ## Reads of the package (60_exceptions.md R524, R531) -/

theorem errorsAt_package_eq_nil {s : State} {n k : Nat} (h : s.packageErrors n = []) (hk : k < n) :
    s.errorsAt (.package k) = [] := by
  induction n with
  | zero => omega
  | succ j ih =>
    obtain ⟨hinit, hlast⟩ := List.append_eq_nil_iff.mp h
    by_cases hkj : k = j
    · rw [hkj, hlast]
    · exact ih hinit (by omega)

/-- Reads without errors deliver the package that is in memory. -/
theorem package_of_no_errors {s : State} (h : s.packageErrors 16 = []) :
    s.package = Memory.readImage s.mem s.cpu.packageBase 16 := by
  have hword : ∀ img k, k < 16 →
      delivered (s.errorsAt (.package k)) (s.drawAt (16 + k)) (imageWord img k) = imageWord img k :=
    fun img k hk => delivered_clean _ _ (by rw [errorsAt_package_eq_nil h hk]; rfl)
  rw [State.package, deliveredImage_eq_wordsImage, wordsImage_congr (hword _), wordsImage_imageWord]

/-- The errors that accompany the reads depend on the events of the step alone. -/
theorem packageErrors_congr {s t : State} (h : t.readErrors = s.readErrors) (n : Nat) :
    t.packageErrors n = s.packageErrors n := by
  induction n with
  | zero => rfl
  | succ k ih => rw [State.packageErrors, ih, State.packageErrors, State.errorsAt, h]; rfl

end Sys2Proof.Machine
end

section
/-! The exchange sequence (60_exceptions.md R531): the registers it loads, the package it stores, and that the one undoes
the other. -/

namespace Sys2Proof.Machine

open Sys2Proof

/-! ## The state after an exchange -/

theorem writeImage_params (s : State) (a : Nat) (img : PackageImage) (n : Nat) :
    (s.writeImage a img n).params = s.params := by
  rw [writeImage_frame]

/-- The CPU after an exchange: the registers of the package, and what the errors of its reads do to them (log 25). -/
theorem swapped_cpu (s : State) (img : PackageImage) :
    ∃ now, (s.swapped img).cpu =
      (s.cpu.load s.params.xp s.params.blGrain now img).noteErrors (s.packageErrors 16) := by
  have hcpu := writeImage_cpu s s.cpu.packageBase s.outgoing 16
  have hparams := writeImage_params s s.cpu.packageBase s.outgoing 16
  unfold State.swapped
  generalize s.writeImage s.cpu.packageBase s.outgoing 16 = w at hcpu hparams ⊢
  exact ⟨w.writeClock, by rw [State.withCpu_cpu, State.drawn_cpu, State.drawn_params, hcpu, hparams]; rfl⟩

theorem swapped_mem (s : State) (img : PackageImage) :
    (s.swapped img).mem = (s.writeImage s.cpu.packageBase s.outgoing 16).mem := rfl

/-- What an exchange leaves alone of the machine. -/
theorem swapped_frame (s : State) (img : PackageImage) :
    s.swapped img = { s with cpu := (s.swapped img).cpu, mem := (s.swapped img).mem,
                             writeLog := (s.swapped img).writeLog, writeClock := (s.swapped img).writeClock,
                             draws := (s.swapped img).draws } := by
  have hframe := writeImage_frame s s.cpu.packageBase s.outgoing 16
  simp only [State.swapped]
  generalize s.writeImage s.cpu.packageBase s.outgoing 16 = w at hframe ⊢
  generalize Cpu.noteErrors _ _ = c
  rw [hframe]
  rfl

/-- An exchange changes no byte outside the package. -/
theorem sameBytesOutside_swapped (s : State) (img : PackageImage) :
    SameBytesOutside s (s.swapped img) (fun w => s.cpu.packageBase ≤ w ∧ w < s.cpu.packageBase + 16) := by
  intro x hx
  rw [swapped_mem]
  exact readByte_writeImage s _ _ 16 x hx

/-- After an exchange the package in memory is the one that went out. -/
theorem readImage_swapped (s : State) (img : PackageImage) :
    Memory.readImage (s.swapped img).mem s.cpu.packageBase 16 = s.outgoing := by
  rw [swapped_mem, readImage_writeImage]

/-! ## The registers a package gives -/

theorem readFieldFlags_get (lay : XPLayout) (img : PackageImage) (n : FlagName) :
    (readFieldFlags lay img).get n = readFieldBit lay img (.flag n) := by cases n <;> rfl

theorem readFieldMode_get (lay : XPLayout) (img : PackageImage) (n : ModeName) :
    (readFieldMode lay img).get n = readFieldBit lay img (.mode n) := by cases n <;> rfl

/-- Setting F.ME leaves every other flag as it is. -/
theorem Flags.get_with_me (f : Flags) (b : Bool) {n : FlagName} (hn : n ≠ .me) :
    ({ f with me := b } : Flags).get n = f.get n := by
  cases n <;> first | rfl | exact absurd rfl hn

theorem Flags.ext_get {f g : Flags} (h : ∀ n, f.get n = g.get n) : f = g := by
  cases f
  cases g
  simp only [Flags.mk.injEq]
  exact ⟨h .icp, h .dl, h .pci, h .mcu, h .fpe, h .ore, h .pre, h .me, h .ioi, h .eex, h .nex⟩

theorem Mode.ext_get {m k : Mode} (h : ∀ n, m.get n = k.get n) : m = k := by
  cases m
  cases k
  simp only [Mode.mk.injEq]
  exact ⟨h .ps, h .fps, h .bdm, h .ior, h .ifp, h .ium, h .icm, h .eam, h .sei, h .imm, h .mm⟩

/-- A base or limit register counts words, its field units of the grain. -/
theorem readFieldBase_toNat (lay : XPLayout) (grain : Nat) (img : PackageImage) (f : XPField) :
    (readFieldBase lay grain img f).toNat = (readField lay img f).toNat * 2 ^ grain % 2 ^ 32 := by
  rw [readFieldBase, BitVec.toNat_shiftLeft, BitVec.toNat_setWidth, Nat.shiftLeft_eq, Nat.mod_mul_mod]

section
variable (c : Cpu) (lay : XPLayout) (grain now : Nat) (img : PackageImage) (i : BitVec 3)

theorem load_regA : regGet (c.load lay grain now img).a i =
    amask (c.load lay grain now img).m.eam ((readField lay img (.a i)).setWidth 32) := by
  simp [Cpu.load, regGet, readFieldMode]

theorem load_regS : regGet (c.load lay grain now img).s i = readField lay img (.s i) := by
  simp [Cpu.load, regGet]

/-- A second load leaves nothing of the first. -/
theorem load_load (first : Nat) (other : PackageImage) :
    (c.load lay grain first other).load lay grain now img = c.load lay grain now img := rfl

end

/-! ## The exchange loads the package -/

/-- What the errors of reads may change of a CPU, whatever the errors. -/
theorem noteErrors_fields (c : Cpu) (l : List ReadError) :
    ∃ cme ume me err, c.noteErrors l =
      { c with cmeSeen := cme, umeSeen := ume, f := { c.f with me := me }, memErr := err } :=
  ⟨_, _, _, _, noteErrors_eq c l⟩

/-- Settles O48: the exchange goes on to `State.swapped`, whose CPU is the loaded one but for the errors of the reads. -/
theorem exchangeLoadsThePackage : Obligations.ExchangeLoadsThePackage := by
  intro s ⟨hmem, hbusy, hvl, hcln⟩
  refine ⟨s.swapped s.package, exchange_next.mpr ⟨hmem, hbusy, hvl, hcln, rfl⟩, ?_⟩
  have hframe := swapped_frame s s.package
  have hbytes := sameBytesOutside_swapped s s.package
  obtain ⟨now, hcpu⟩ := swapped_cpu s s.package
  have herr := errorsSeen_noteErrors (s.cpu.load s.params.xp s.params.blGrain now s.package) (s.packageErrors 16)
  obtain ⟨cme, ume, me, err, hfields⟩ :=
    noteErrors_fields (s.cpu.load s.params.xp s.params.blGrain now s.package) (s.packageErrors 16)
  rw [← hcpu] at herr
  rw [hfields] at hcpu
  generalize s.swapped s.package = t at hcpu hframe hbytes herr ⊢
  have hm : t.cpu.m = readFieldMode s.params.xp s.package := by rw [hcpu]; rfl
  have base : ∀ f, (readFieldBase s.params.xp s.params.blGrain s.package f).toNat =
      (readField s.params.xp s.package f).toNat * 2 ^ s.params.blGrain % 2 ^ 32 := readFieldBase_toNat _ _ _
  refine ⟨fun i => ?_, fun i => ?_, by rw [hcpu]; rfl, by rw [hcpu]; rfl, by rw [hcpu]; rfl, by rw [hcpu]; rfl,
    by rw [hcpu]; exact base .iba, by rw [hcpu]; exact base .ila, by rw [hcpu]; exact base .dba,
    by rw [hcpu]; exact base .dla, fun n hn => ?_, by rw [hm]; exact herr, fun n => ?_, by rw [hcpu]; rfl,
    by rw [hcpu]; rfl, by rw [hcpu]; rfl, hframe, hbytes⟩
  · rw [hcpu, load_regA, amask_toNat, BitVec.toNat_setWidth]
  · rw [hcpu, load_regS]
  · rw [hcpu, Flags.get_with_me _ _ hn]
    exact readFieldFlags_get _ _ n
  · rw [hm]
    exact readFieldMode_get _ _ n

end Sys2Proof.Machine
end

section
/-! The exchange as a round trip (60_exceptions.md R531, R533): the stored package holds the program, and loading it
again restores it. -/

namespace Sys2Proof.Machine

open Sys2Proof

theorem xp_wf_of_params_wf {p : Params} (h : p.wf = true) : p.xp.wf p.blWidth = true := by
  simp only [Params.wf, Bool.and_eq_true] at h
  obtain ⟨⟨-, hxp⟩, -⟩ := h
  exact hxp

/-! ## The fields of the outgoing package -/

section
variable {s : State} (hwf : s.params.wf = true) (hd : s.cpu.deadstart = false)
include hwf hd

/-- The outgoing package of a running program holds every field the CPU has a value for. -/
theorem holds_outgoing {f : XPField} {v : Word} (hv : s.cpu.field s.params.blGrain f = some v) :
    Holds s s.outgoing f v := by
  rw [Holds, State.outgoing, hd]
  exact readField_packFields (xp_wf_of_params_wf hwf) s.cpu _ f.mem_all XPField.nodup_all hv _

/-- A register of the width of its field can be read back whole. -/
theorem readField_outgoing {f : XPField} {n : Nat} (x : BitVec n) (hn : f.width? = some n) (hle : n ≤ 64)
    (hx : s.cpu.field s.params.blGrain f = some (x.setWidth 64)) :
    (readField s.params.xp s.outgoing f).setWidth n = x := by
  have hh := holds_outgoing hwf hd hx
  rw [Holds, XPLayout.slot_width (xp_wf_of_params_wf hwf) hn, BitVec.toNat_setWidth_of_le hle] at hh
  apply BitVec.eq_of_toNat_eq
  rw [BitVec.toNat_setWidth, hh, Nat.mod_mod, Nat.mod_eq_of_lt x.isLt]

/-- A one-bit register can be read back. -/
theorem readFieldBit_outgoing {f : XPField} (b : Bool) (hn : f.width? = some 1)
    (hx : s.cpu.field s.params.blGrain f = some ((BitVec.ofBool b).setWidth 64)) :
    readFieldBit s.params.xp s.outgoing f = b := by
  have hbit := congrArg (·.getLsbD 0) (readField_outgoing hwf hd (BitVec.ofBool b) hn (by omega) hx)
  simpa [readFieldBit] using hbit

theorem readFieldFlags_outgoing : readFieldFlags s.params.xp s.outgoing = s.cpu.f :=
  Flags.ext_get fun n => by
    rw [readFieldFlags_get]
    exact readFieldBit_outgoing hwf hd _ rfl rfl

theorem readFieldMode_outgoing : readFieldMode s.params.xp s.outgoing = s.cpu.m :=
  Mode.ext_get fun n => by
    rw [readFieldMode_get]
    exact readFieldBit_outgoing hwf hd _ rfl rfl

/-- A base or limit register that its field can hold without loss can be read back. -/
theorem readFieldBase_outgoing {f : XPField} {b : BitVec 32} (hf : f.isBaseLimit = true) (hb : Storable s b)
    (hx : s.cpu.field s.params.blGrain f = some ((b >>> s.params.blGrain).setWidth 64)) :
    readFieldBase s.params.xp s.params.blGrain s.outgoing f = b := by
  obtain ⟨hunits, hfits⟩ := hb
  have hh := holds_outgoing hwf hd hx
  rw [Holds, XPLayout.slot_width_base (xp_wf_of_params_wf hwf) hf, BitVec.toNat_setWidth_of_le (by omega),
    BitVec.toNat_ushiftRight, Nat.shiftRight_eq_div_pow, Nat.mod_eq_of_lt hfits] at hh
  apply BitVec.eq_of_toNat_eq
  rw [readFieldBase_toNat, hh, Nat.div_mul_cancel (Nat.dvd_of_mod_eq_zero hunits), Nat.mod_eq_of_lt b.isLt]

end

/-! ## What the stored package holds -/

/-- Settles O49: the image in memory is the outgoing package, whose every field reads what was put in it. -/
theorem exchangeStoresTheProgram : Obligations.ExchangeStoresTheProgram := by
  intro s t hwf hd hnext
  obtain ⟨-, -, -, -, rfl⟩ := exchange_next.mp hnext
  rw [readImage_swapped]
  have holds : ∀ {f : XPField} {v : Word}, s.cpu.field s.params.blGrain f = some v → Holds s s.outgoing f v :=
    holds_outgoing hwf hd
  have holdsBase : ∀ {f : XPField} {b : BitVec 32},
      s.cpu.field s.params.blGrain f = some ((b >>> s.params.blGrain).setWidth 64) →
      Holds s s.outgoing f (BitVec.ofNat 64 (b.toNat / 2 ^ s.params.blGrain)) := fun {f b} hb => by
    have hunits : (b >>> s.params.blGrain).setWidth 64 = BitVec.ofNat 64 (b.toNat / 2 ^ s.params.blGrain) := by
      rw [← BitVec.ofNat_toNat, BitVec.toNat_ushiftRight, Nat.shiftRight_eq_div_pow]
    exact hunits ▸ holds hb
  refine ⟨holds rfl, holds rfl, holdsBase rfl, holdsBase rfl, holdsBase rfl, holdsBase rfl, holds rfl, holds rfl,
    holds rfl, holds rfl, holds rfl, fun n => holds rfl, fun n => holds rfl, fun i => ?_, fun i => holds rfl,
    holds rfl, holds rfl, fun e he => ?_⟩
  · rw [← amask_toNat, BitVec.ofNat_toNat]
    exact holds rfl
  · have recorded : ∀ g : MemErrInfo → Word, s.cpu.memErr.map g = some (g e) := fun g => by rw [he]; rfl
    exact ⟨holds (recorded _), holds (recorded _), holds (recorded _), holds (recorded _), holds (recorded _),
      holds (recorded _)⟩

/-! ## Out and straight back -/

/-- The program restored: the A registers as they were read, and the interval's own records begun anew. -/
theorem load_outgoing {s : State} (hwf : s.params.wf = true) (hd : s.cpu.deadstart = false)
    (hiba : Storable s s.cpu.iba) (hila : Storable s s.cpu.ila) (hdba : Storable s s.cpu.dba)
    (hdla : Storable s s.cpu.dla) (now : Nat) :
    s.cpu.load s.params.xp s.params.blGrain now s.outgoing =
      { s.cpu with a := (s.cpu.load s.params.xp s.params.blGrain now s.outgoing).a
                   vused := false, memErr := none, holding := none, refs := [], intervalStart := now } := by
  have hs : (s.cpu.load s.params.xp s.params.blGrain now s.outgoing).s = s.cpu.s := regs_ext _ _ fun i => by
    rw [load_regS]
    simpa using readField_outgoing hwf hd (f := .s i) (regGet s.cpu.s i) rfl le_rfl (by simp [Cpu.field])
  have hp := readField_outgoing hwf hd (f := .p) s.cpu.p rfl (by omega) rfl
  have hxa := readField_outgoing hwf hd (f := .xa) s.cpu.xa rfl (by omega) rfl
  have hvl := readField_outgoing hwf hd (f := .vl) s.cpu.vl rfl (by omega) rfl
  have hcln := readField_outgoing hwf hd (f := .cln) s.cpu.cln rfl (by omega) rfl
  have hcbw := readFieldBit_outgoing hwf hd (f := .cbw) s.cpu.cbw rfl rfl
  have hsbo := readFieldBit_outgoing hwf hd (f := .sbo) s.cpu.sbo rfl rfl
  simp only [Cpu.load] at hs ⊢
  simp only [hs, hp, hxa, hvl, hcln, hcbw, hsbo, hd, readFieldFlags_outgoing hwf hd, readFieldMode_outgoing hwf hd,
    readFieldBase_outgoing hwf hd (f := .iba) rfl hiba rfl, readFieldBase_outgoing hwf hd (f := .ila) rfl hila rfl,
    readFieldBase_outgoing hwf hd (f := .dba) rfl hdba rfl, readFieldBase_outgoing hwf hd (f := .dla) rfl hdla rfl]

/-- An A register restored is the one that was read. -/
theorem load_outgoing_regA {s : State} (hwf : s.params.wf = true) (hd : s.cpu.deadstart = false) (now : Nat)
    (i : BitVec 3) :
    regGet (s.cpu.load s.params.xp s.params.blGrain now s.outgoing).a i = s.readA i := by
  have hm : (s.cpu.load s.params.xp s.params.blGrain now s.outgoing).m = s.cpu.m := readFieldMode_outgoing hwf hd
  rw [load_regA, hm, readField_outgoing hwf hd (f := .a i) (s.readA i) rfl (by omega) rfl]
  exact amask_amask _ _

@[simp] theorem noteErrors_nil (c : Cpu) : c.noteErrors [] = c := rfl

/-- Without memory errors the CPU after an exchange is the loaded one. -/
theorem swapped_cpu_of_no_errors {s : State} (h : s.packageErrors 16 = []) (img : PackageImage) :
    ∃ now, (s.swapped img).cpu = s.cpu.load s.params.xp s.params.blGrain now img := by
  obtain ⟨now, hcpu⟩ := swapped_cpu s img
  exact ⟨now, by rw [hcpu, h, noteErrors_nil]⟩

/-- A channel at work on the package is seen in the channels and XA alone. -/
theorem packageBusy_congr {s t : State} (hch : t.channels = s.channels)
    (hbase : t.cpu.packageBase = s.cpu.packageBase) : t.packageBusy = s.packageBusy := by
  simp only [State.packageBusy, State.channelBusy, hch, hbase]

/-- Settles O50: the second exchange loads the package that the first one stored. -/
theorem exchangeBackRestoresTheProgram : Obligations.ExchangeBackRestoresTheProgram := by
  intro s t hwf hd hvl hcln hiba hila hdba hdla herr hnext hxa
  obtain ⟨hmem, hbusy, -, -, ht⟩ := exchange_next.mp hnext
  obtain ⟨first, hcpu⟩ := swapped_cpu_of_no_errors herr s.package
  have hframe := swapped_frame s s.package
  have hout := sameBytesOutside_swapped s s.package
  have himg := readImage_swapped s s.package
  rw [← ht] at hcpu hframe hout himg
  have hparams : t.params = s.params := by rw [hframe]
  have hchannels : t.channels = s.channels := by rw [hframe]
  have hreads : t.readErrors = s.readErrors := by rw [hframe]
  have hbase : t.cpu.packageBase = s.cpu.packageBase := by rw [Cpu.packageBase, hxa, Cpu.packageBase]
  have herr' : t.packageErrors 16 = [] := (packageErrors_congr hreads 16).trans herr
  have hpackage : t.package = s.outgoing := by rw [package_of_no_errors herr', hbase, himg]
  obtain ⟨now, hback⟩ := swapped_cpu_of_no_errors herr' t.package
  rw [hcpu, hparams, hpackage, load_load] at hback
  refine ⟨t.swapped t.package, exchange_next.mpr ⟨?_, ?_, ?_, ?_, rfl⟩, fun i => ?_, ?_, fun x hx => ?_⟩
  · rw [hbase, hparams]; exact hmem
  · rw [packageBusy_congr hchannels hbase]; exact hbusy
  · rw [hparams, hpackage, readField_outgoing hwf hd s.cpu.vl rfl (by omega) rfl]; exact hvl
  · rw [hparams, hpackage, readField_outgoing hwf hd s.cpu.cln rfl (by omega) rfl]; exact hcln
  · rw [hpackage, hback, load_outgoing_regA hwf hd, s.readA_toNat]
  · rw [hpackage, hback]
    exact load_outgoing hwf hd hiba hila hdba hdla now
  · have hsecond := sameBytesOutside_swapped t t.package x
    rw [hbase] at hsecond
    exact (hsecond hx).trans (hout x hx)

end Sys2Proof.Machine
end

section
/-! What an instruction that is no exit keeps, as a relation of two states, and what it means that memory outside the
data range has no part in an outcome (10_state.md R36, 20_memory.md R86, 60_exceptions.md R540). -/

namespace Sys2Proof.Machine

open Sys2Proof

/-! ## Memory replaced -/

/-- The state with another memory. -/
def State.withMem (s : State) (m : Memory) : State := { s with mem := m }

@[simp] theorem State.withMem_cpu (s : State) (m : Memory) : (s.withMem m).cpu = s.cpu := rfl
@[simp] theorem State.withMem_mem (s : State) (m : Memory) : (s.withMem m).mem = m := rfl

/-- Two memories hold the same words in the data range of the CPU that moves. -/
def SameInRange (s : State) (m n : Memory) : Prop :=
  ∀ a, s.cpu.dba.toNat ≤ a → a < s.cpu.dla.toNat → Memory.readWord m a = Memory.readWord n a

/-- Writing the same word in both keeps two memories the same in the range. -/
theorem SameInRange.writeWord {s : State} {m n : Memory} (h : SameInRange s m n) (a : Nat) (v : Word) :
    SameInRange s (Memory.writeWord m a v) (Memory.writeWord n a v) := by
  intro b hlo hhi
  by_cases hb : b = a
  · rw [hb, readWord_writeWord_same, readWord_writeWord_same]
  · rw [readWord_writeWord_ne _ _ _ _ hb, readWord_writeWord_ne _ _ _ _ hb, h b hlo hhi]

/-! ## What is kept of the CPU -/

/-- What an instruction that is no exit keeps of its CPU: the processor number, the execution interval, the mode bits
but BDM, FPS, IFP and IOR, the flags but FPE, ORE and ME, the base and limit registers; VL and CLN it keeps in range. -/
structure CpuKept (p : Params) (c d : Cpu) : Prop where
  pn : d.pn = c.pn
  interval : d.intervalStart = c.intervalStart
  vl : d.vl = c.vl ∨ d.vl.toNat ≤ 64
  cln : d.cln = c.cln ∨ d.cln.toNat ≤ p.ncluster
  mode : d.m = { c.m with bdm := d.m.bdm, fps := d.m.fps, ifp := d.m.ifp, ior := d.m.ior }
  flags : d.f = { c.f with fpe := d.f.fpe, ore := d.f.ore, me := d.f.me }
  iba : d.iba = c.iba
  ila : d.ila = c.ila
  dba : d.dba = c.dba
  dla : d.dla = c.dla

/-- The registers of a CPU that `CpuKept` speaks of. -/
def Cpu.guarded (c : Cpu) :
    (BitVec 3 × Nat × BitVec 7 × BitVec 4) × (Mode × Flags) × (BitVec 32 × BitVec 32 × BitVec 32 × BitVec 32) :=
  ((c.pn, c.intervalStart, c.vl, c.cln), (c.m, c.f), (c.iba, c.ila, c.dba, c.dla))

theorem CpuKept.refl (p : Params) (c : Cpu) : CpuKept p c c :=
  ⟨rfl, rfl, .inl rfl, .inl rfl, rfl, rfl, rfl, rfl, rfl, rfl⟩

/-- A change of other registers adds nothing to what is kept. -/
theorem CpuKept.of_guarded {p : Params} {c d e : Cpu} (h : CpuKept p c d) (he : e.guarded = d.guarded) :
    CpuKept p c e := by
  simp only [Cpu.guarded, Prod.mk.injEq] at he
  obtain ⟨⟨hpn, hint, hvl, hcln⟩, ⟨hm, hf⟩, hiba, hila, hdba, hdla⟩ := he
  exact ⟨hpn.trans h.pn, hint.trans h.interval, hvl ▸ h.vl, hcln ▸ h.cln, hm ▸ h.mode, hf ▸ h.flags,
    hiba.trans h.iba, hila.trans h.ila, hdba.trans h.dba, hdla.trans h.dla⟩

/-- A load into a file of 64 registers, B or T, changes no guarded register. -/
theorem Cpu.guarded_load_b (c : Cpu) (x : Vector Addr (2 ^ 6)) : ({ c with b := x } : Cpu).guarded = c.guarded := rfl

theorem Cpu.guarded_load_t (c : Cpu) (x : Vector Word (2 ^ 6)) : ({ c with t := x } : Cpu).guarded = c.guarded := rfl

theorem Cpu.f_of_guarded {c d : Cpu} (h : d.guarded = c.guarded) : d.f = c.f := congrArg (·.2.1.2) h

/-! ## What is kept of the machine -/

/-- What an instruction that is no exit keeps of the machine: the parameters, its CPU's program, F.ME where no error
accompanies its reads, the other CPUs but for their interrupt requests, the channels' numbers; the words it writes
lie in the data range. -/
structure Kept (s t : State) : Prop where
  params : t.params = s.params
  cpu : CpuKept s.params s.cpu t.cpu
  me : (∀ n, s.errorsAt (.operand n) = []) → t.cpu.f.me = s.cpu.f.me
  others : List.Forall₂ (fun c d => d = { c with ipiRequest := d.ipiRequest }) s.others t.others
  channels : t.channels.map Channel.num = s.channels.map Channel.num
  writes : ∃ l, (∀ p, some p ∈ l → s.cpu.dba.toNat ≤ p.1 ∧ p.1 < s.cpu.dla.toNat) ∧
    t.mem = (s.memWrites l).mem ∧ t.writeLog = (s.memWrites l).writeLog ∧ t.writeClock = (s.memWrites l).writeClock

/-- The case of a change of the CPU, the clusters, the clock and the count of draws alone. -/
theorem kept_of_cpu {s t : State} (hc : CpuKept s.params s.cpu t.cpu)
    (hme : (∀ n, s.errorsAt (.operand n) = []) → t.cpu.f.me = s.cpu.f.me)
    (ht : t = { s with cpu := t.cpu, clusters := t.clusters, rtc := t.rtc, draws := t.draws }) : Kept s t where
  params := by rw [ht]
  cpu := hc
  me := hme
  others := by rw [ht]; exact List.forall₂_same.mpr fun _ _ => rfl
  channels := by rw [ht]
  writes := ⟨[], by simp, by rw [ht]; rfl, by rw [ht]; rfl, by rw [ht]; rfl⟩

theorem Kept.refl (s : State) : Kept s s := kept_of_cpu (CpuKept.refl _ _) (fun _ => rfl) rfl

/-- A further change of unguarded registers, of the clusters, the clock and the count of draws. -/
theorem Kept.registers {s t u : State} (h : Kept s t) (hc : u.cpu.guarded = t.cpu.guarded)
    (hu : u = { t with cpu := u.cpu, clusters := u.clusters, rtc := u.rtc, draws := u.draws }) : Kept s u where
  params := by rw [hu]; exact h.params
  cpu := h.cpu.of_guarded hc
  me := by rw [Cpu.f_of_guarded hc]; exact h.me
  others := by rw [hu]; exact h.others
  channels := by rw [hu]; exact h.channels
  writes := by rw [hu]; exact h.writes

/-! ## Outcomes that do not see the memory outside the range -/

/-- The same stop, or next states that differ in memory alone, which agrees in the data range of `s`. -/
inductive OutAlike (s : State) : Out → Out → Prop where
  | next (t : State) (n : Memory) (h : SameInRange s n t.mem) : OutAlike s (.next t) (.next (t.withMem n))
  | fault (r : Fault) : OutAlike s (.fault r) (.fault r)
  | refused (r : Refusal) : OutAlike s (.refused r) (.refused r)

/-- An outcome in `s` and one with another memory: what the first keeps, and that they are alike. -/
structure Confined (s : State) (o o' : Out) : Prop where
  kept : ∀ t, o = .next t → Kept s t
  alike : OutAlike s o o'

theorem confined_next {s t u : State} {n : Memory} (hn : SameInRange s n t.mem) (h : Kept s t)
    (hu : u = t.withMem n) : Confined s (.next t) (.next u) :=
  ⟨fun _ e => Host.Outcome.next.inj e ▸ h, hu ▸ .next t n hn⟩

theorem confined_stop (s : State) (e : Stop) : Confined s e.out e.out := by
  cases e with
  | fault r => exact ⟨fun _ h => (nomatch h), .fault r⟩
  | refuse r => exact ⟨fun _ h => (nomatch h), .refused r⟩

theorem confined_refused (s : State) (r : Refusal) : Confined s (.refused r) (.refused r) := confined_stop s (.refuse r)

theorem confined_ite {s : State} {a a' b b' : Out} {c : Prop} [Decidable c] (ha : c → Confined s a a')
    (hb : ¬ c → Confined s b b') : Confined s (if c then a else b) (if c then a' else b') := by
  split
  · exact ha ‹_›
  · exact hb ‹_›

theorem confined_unless {s : State} {r : Refusal} {o o' : Out} {c : Prop} [Decidable c] (h : ¬ c → Confined s o o') :
    Confined s (if c then .refused r else o) (if c then .refused r else o') :=
  confined_ite (fun _ => confined_refused s r) h

/-- Going on with a result that may have stopped: with another memory the result is a function of it. -/
theorem confined_orStop {α : Type} {s : State} {r r' : Except Stop α} {k k' : α → Out} (g : α → α) (hr : r' = r.map g)
    (h : ∀ x, r = .ok x → Confined s (k x) (k' (g x))) : Confined s (orStop r k) (orStop r' k') := by
  subst hr
  cases r with
  | ok x => exact h x rfl
  | error e => exact confined_stop s e

end Sys2Proof.Machine
end

section
/-! What the instructions that make no operand reference keep: one lemma for each shape in which they end. In each, the
second outcome is that of the state with another memory. -/

namespace Sys2Proof.Machine

open Sys2Proof

section
variable {s : State} {m : Memory} (hm : SameInRange s m s.mem)
include hm

/-- An instruction that changes unguarded registers of its CPU, a cluster, the clock or the count of draws. -/
theorem confined_registers {t u : State} (hc : t.cpu.guarded = s.cpu.guarded)
    (ht : t = { s with cpu := t.cpu, clusters := t.clusters, rtc := t.rtc, draws := t.draws })
    (hu : u = t.withMem m) : Confined s (.next t) (.next u) :=
  confined_next (by rw [ht]; exact hm) ((Kept.refl s).registers hc ht) hu

/-- An instruction that changes BDM, FPS, IFP or IOR. -/
theorem confined_writeM (x : Mode)
    (hx : x = { s.cpu.m with bdm := x.bdm, fps := x.fps, ifp := x.ifp, ior := x.ior }) :
    Confined s ((s.writeM x).done 1) (((s.withMem m).writeM x).done 1) :=
  confined_next hm (kept_of_cpu ⟨rfl, rfl, .inl rfl, .inl rfl, hx, rfl, rfl, rfl, rfl, rfl⟩ (fun _ => rfl) rfl) rfl

/-- A floating-point result that is written to unguarded registers: a range error adds FPS and FPE. -/
theorem confined_fpError {t u : State} (b d : Bool) (n : Nat) (hc : t.cpu.guarded = s.cpu.guarded)
    (ht : t = { s with cpu := t.cpu }) (hu : u = t.withMem m) :
    Confined s (((t.fpError b).drawnIf d n).done 1) (((u.fpError b).drawnIf d n).done 1) := by
  subst hu
  have hkept : Kept s (t.fpError b) := by
    have h := (CpuKept.refl s.params s.cpu).of_guarded hc
    rw [fpError_eq]
    refine kept_of_cpu ⟨h.pn, h.interval, h.vl, h.cln, ?_, ?_, h.iba, h.ila, h.dba, h.dla⟩ (fun _ => ?_) ?_
    · rw [h.mode]; rfl
    · rw [h.flags]; rfl
    · show t.cpu.f.me = s.cpu.f.me
      rw [Cpu.f_of_guarded hc]
    · rw [ht]; rfl
  refine confined_next (t := ((t.fpError b).drawnIf d n).advance 1) (n := m) ?_ (hkept.registers ?_ ?_) ?_
  · rw [State.advance_mem, State.drawnIf_mem, State.fpError_mem, ht]; exact hm
  · rw [State.advance_cpu, State.drawnIf_cpu]; rfl
  · cases d <;> rfl
  · cases b <;> cases d <;> rfl

theorem confined_scalarFp (i : BitVec 3) (r : Word × Bool) :
    Confined s (s.scalarFp i r) ((s.withMem m).scalarFp i r) :=
  confined_fpError hm (t := s.writeS i r.1) r.2 false 0 rfl rfl rfl

theorem confined_sFmul (i j k : BitVec 3) : Confined s (execSFmul i j k s) (execSFmul i j k (s.withMem m)) :=
  confined_fpError hm _ _ _ rfl rfl rfl

/-! ## The vector frame (41 R205) -/

theorem confined_vectorOp (i : BitVec 3) (f : BitVec 6 → Word) :
    Confined s (s.vectorOp i f) ((s.withMem m).vectorOp i f) :=
  confined_unless fun _ => confined_registers hm rfl rfl rfl

theorem confined_vectorFp (i : BitVec 3) (f : BitVec 6 → Word × Bool) :
    Confined s (s.vectorFp i f) ((s.withMem m).vectorFp i f) :=
  confined_unless fun _ =>
    confined_fpError hm (t := (s.writeV i (s.vectorResult i fun e => (f e).1)).markVector) _ false 0 rfl rfl rfl

theorem confined_vectorMul (i : BitVec 3) (a b : BitVec 6 → Word) :
    Confined s (s.vectorMul i a b) ((s.withMem m).vectorMul i a b) :=
  confined_unless fun _ => confined_fpError hm _ _ _ rfl rfl rfl

theorem confined_vImul32 (i j k : BitVec 3) :
    Confined s (execVImul32 i j k s) (execVImul32 i j k (s.withMem m)) :=
  confined_unless fun _ =>
    confined_fpError hm (t := (s.writeV i (s.vectorResult i fun e =>
      imul32 (s.sjVal j) (s.velem k e) (s.drawAt e.toNat))).markVector) false
      (s.anyElem fun e => !imul32Exact (s.sjVal j) (s.velem k e)) s.cpu.vl.toNat rfl rfl rfl

theorem confined_maskTest (test : Word → Bool) (j : BitVec 3) :
    Confined s (s.maskTest test j) ((s.withMem m).maskTest test j) :=
  confined_unless fun _ => confined_registers hm rfl rfl rfl

theorem confined_compressedIndex (test : Word → Bool) (i j : BitVec 3) :
    Confined s (s.compressedIndex test i j) ((s.withMem m).compressedIndex test i j) := by
  have hmask : (s.withMem m).testedMask test j = s.testedMask test j := rfl
  have hindices : (s.withMem m).compressed test j = s.compressed test j := rfl
  unfold State.compressedIndex
  rw [hmask, hindices]
  generalize s.testedMask test j = mask
  generalize s.compressed test j = indices
  refine confined_unless fun _ => confined_unless fun _ => confined_registers hm ?_ ?_ ?_
  · simp only [State.advance_cpu, State.drawn_cpu, State.markVector_cpu, State.writeV_cpu, State.writeVm_cpu]; rfl
  · simp only [State.advance, State.drawn, State.markVector, State.writeV, State.writeVm, State.withCpu]
  · simp only [State.advance, State.drawn, State.markVector, State.writeV, State.writeVm, State.withCpu, State.withMem]

/-! ## Shared registers, elements, branches -/

omit hm in
theorem confined_shared {k k' : Cluster → Out} (h : ∀ c, Confined s (k c) (k' c)) :
    Confined s (s.shared k) ((s.withMem m).shared k') := confined_unless fun _ => h _

omit hm in
theorem confined_withElem {k : BitVec 3} {f f' : BitVec 6 → Out} (h : ∀ x, Confined s (f x) (f' x)) :
    Confined s (s.withElem k f) ((s.withMem m).withElem k f') := confined_unless fun _ => h _

theorem confined_branchIf (taken : Bool) (target : PAddr) :
    Confined s (s.branchIf taken target) ((s.withMem m).branchIf taken target) :=
  confined_ite (fun _ => confined_registers hm rfl rfl rfl) fun _ => confined_registers hm rfl rfl rfl

theorem confined_vlFromA (k : BitVec 3) : Confined s (execVlFromA k s) (execVlFromA k (s.withMem m)) := by
  refine confined_unless fun hk => confined_next hm
    (kept_of_cpu ⟨rfl, rfl, .inr ?_, .inl rfl, rfl, rfl, rfl, rfl, rfl, rfl⟩ (fun _ => rfl) rfl) rfl
  have hle : ((s.akVal k).setWidth 7).toNat ≤ (s.akVal k).toNat := by
    rw [BitVec.toNat_setWidth]; exact Nat.mod_le _ _
  exact hle.trans (Nat.le_of_not_lt hk)

/-! ## Monitor mode and channels -/

theorem confined_monitorOnly {o o' : Out} (h : Confined s o o') :
    Confined s (s.monitorOnly o) ((s.withMem m).monitorOnly o') :=
  confined_ite (fun _ => h) fun _ => confined_registers hm rfl rfl rfl

omit hm in
theorem confined_withChannel (ch : Addr) {k k' : Channel → Out} (h : ∀ c, Confined s (k c) (k' c)) :
    Confined s (s.withChannel ch k) ((s.withMem m).withChannel ch k') := by
  have hch : (s.withMem m).channel ch = s.channel ch := rfl
  unfold State.withChannel
  rw [hch]
  cases s.channel ch with
  | none => exact confined_refused s _
  | some c => exact h c

/-- A change of a channel that keeps its number. -/
theorem confined_setChannel (ch : Addr) (f : Channel → Channel) (hf : ∀ c, (f c).num = c.num) :
    Confined s ((s.setChannel ch f).done 1) (((s.withMem m).setChannel ch f).done 1) := by
  have hnum : ∀ c : Channel, (if c.num = ch then f c else c).num = c.num := fun c => by
    split
    · exact hf c
    · rfl
  refine confined_next hm
    ⟨rfl, (CpuKept.refl _ _).of_guarded rfl, fun _ => rfl, ?_, ?_, [], by simp, rfl, rfl, rfl⟩ rfl
  · exact List.forall₂_same.mpr fun _ _ => rfl
  · rw [State.advance_channels, State.setChannel_channels, List.map_map]
    exact List.map_congr_left fun c _ => hnum c

theorem confined_requestIpi (x : Addr) :
    Confined s ((s.requestIpi x).done 1) (((s.withMem m).requestIpi x).done 1) := by
  refine confined_next hm
    ⟨rfl, (CpuKept.refl _ _).of_guarded rfl, fun _ => rfl, ?_, rfl, [], by simp, rfl, rfl, rfl⟩ rfl
  rw [State.advance_others, State.requestIpi_others, List.forall₂_map_right_iff]
  refine List.forall₂_same.mpr fun c _ => ?_
  split <;> rfl

theorem confined_clnLoad (j : BitVec 3) : Confined s (execClnLoad j s) (execClnLoad j (s.withMem m)) := by
  refine confined_monitorOnly hm <| confined_unless fun hj => confined_next hm
    (kept_of_cpu ⟨rfl, rfl, .inl rfl, .inr ?_, rfl, rfl, rfl, rfl, rfl, rfl⟩ (fun _ => rfl) rfl) rfl
  have hle : ((s.selectVal j).setWidth 4).toNat ≤ (s.selectVal j).toNat := by
    rw [BitVec.toNat_setWidth]; exact Nat.mod_le _ _
  exact hle.trans (Nat.le_of_not_lt hj)

theorem confined_aFromCi (i : BitVec 3) : Confined s (execAFromCi i s) (execAFromCi i (s.withMem m)) := by
  have hreq : (s.withMem m).requesting = s.requesting := rfl
  unfold execAFromCi
  rw [hreq]
  cases s.requesting with
  | none => exact confined_registers hm rfl rfl rfl
  | some c => exact confined_registers hm rfl rfl rfl

end

end Sys2Proof.Machine
end

section
/-! Operand references (20_memory.md R86, R98): they name words of the data range, read those alone, and write those
alone. -/

namespace Sys2Proof.Machine

open Sys2Proof

/-! ## Located addresses -/

/-- A located word lies in the data range. -/
theorem locate_in_range {s : State} {ea : Addr} {a : Nat} (h : s.locate ea = .ok (some a)) :
    s.cpu.dba.toNat ≤ a ∧ a < s.cpu.dla.toNat := by
  obtain ⟨rfl, hlt, -, -⟩ := locate_some.mp h
  exact ⟨Nat.le_add_left _ _, hlt⟩

/-- A block reference's addresses are those of its elements. -/
theorem locateAll_cons_ok {s : State} {ea : Addr} {rest : List Addr} {l : List (Option Nat)}
    (h : s.locateAll (ea :: rest) = .ok l) :
    ∃ x xs, s.locate ea = .ok x ∧ s.locateAll rest = .ok xs ∧ l = x :: xs := by
  rw [State.locateAll] at h
  cases hx : s.locate ea with
  | error e => rw [hx] at h; cases h
  | ok x =>
    cases hxs : s.locateAll rest with
    | error e => rw [hx, hxs] at h; cases h
    | ok xs =>
      rw [hx, hxs] at h
      cases h
      exact ⟨x, xs, rfl, rfl, rfl⟩

theorem locateAll_in_range {s : State} {eas : List Addr} {l : List (Option Nat)} (h : s.locateAll eas = .ok l) :
    ∀ a, some a ∈ l → s.cpu.dba.toNat ≤ a ∧ a < s.cpu.dla.toNat := by
  induction eas generalizing l with
  | nil => cases h; simp
  | cons ea rest ih =>
    obtain ⟨x, xs, hx, hxs, rfl⟩ := locateAll_cons_ok h
    intro a ha
    rcases List.mem_cons.mp ha with rfl | ha
    · exact locate_in_range hx
    · exact ih hxs a ha

/-! ## References with another memory -/

theorem locateAll_withMem (s : State) (m : Memory) (eas : List Addr) :
    (s.withMem m).locateAll eas = s.locateAll eas := by
  induction eas with
  | nil => rfl
  | cons ea rest ih =>
    have hloc : (s.withMem m).locate ea = s.locate ea := rfl
    rw [State.locateAll, hloc, ih, State.locateAll]

theorem claim_withMem (s : State) (m : Memory) (new : List Ref) :
    (s.withMem m).claim new = (s.claim new).map fun t => t.withMem m := by
  have hcpu : (s.withMem m).cpu = s.cpu := rfl
  unfold State.claim
  rw [hcpu]
  split <;> rfl

theorem blockErrors_withMem (s : State) (m : Memory) (n : Nat) (l : List (Option Nat)) :
    (s.withMem m).blockErrors n l = s.blockErrors n l := by
  induction l generalizing n with
  | nil => rfl
  | cons x rest ih => cases x <;> simp only [State.blockErrors, ih]; rfl

theorem blockPuts_withMem (s : State) (m : Memory) (b sc : Bool) (seen : List Nat) (n : Nat)
    (l : List (Option Nat × Word)) : (s.withMem m).blockPuts b sc seen n l = s.blockPuts b sc seen n l := by
  induction l generalizing seen n with
  | nil => rfl
  | cons x rest ih => rw [State.blockPuts, ih, State.blockPuts]; rfl

theorem blockElems_withMem {s : State} {m : Memory} (b : Bool) (n : Nat) (l : List (Option Nat))
    (h : ∀ a, some a ∈ l → Memory.readWord m a = Memory.readWord s.mem a) :
    (s.withMem m).blockElems b n l = s.blockElems b n l := by
  induction l generalizing n with
  | nil => rfl
  | cons x rest ih =>
    have helem : (s.withMem m).blockElem b n x = s.blockElem b n x := by
      cases x with
      | none => rfl
      | some a =>
        rw [State.blockElem, State.withMem_mem, h a (by simp)]
        rfl
    rw [State.blockElems, helem, ih _ fun a ha => h a (by simp [ha]), State.blockElems]

theorem afterBlock_withMem (s : State) (m : Memory) (out : Bool) (n : Nat) :
    (s.withMem m).afterBlock out n = (s.afterBlock out n).withMem m := by
  cases out <;> rfl

/-- The same words written into two memories that agree in the range. -/
theorem memWrites_withMem {s t : State} {m : Memory} (h : SameInRange s m t.mem) (l : List (Option (Nat × Word))) :
    ∃ n, (t.withMem m).memWrites l = (t.memWrites l).withMem n ∧ SameInRange s n (t.memWrites l).mem := by
  induction l generalizing t m with
  | nil => exact ⟨m, rfl, h⟩
  | cons x rest ih =>
    cases x with
    | none => exact ih h
    | some p => exact ih (t := t.memWrite p.1 p.2) (h.writeWord p.1 p.2)

theorem memWrites_withCpu (s : State) (c : Cpu) (l : List (Option (Nat × Word))) :
    (s.withCpu c).memWrites l = (s.memWrites l).withCpu c := by
  induction l generalizing s with
  | nil => rfl
  | cons x rest ih =>
    cases x with
    | none => exact ih s
    | some p => exact ih (s.memWrite p.1 p.2)

/-! ## What references keep -/

/-- Errors of reads change the sticky bits, F.ME and the recorded data of the CPU; without errors nothing. -/
theorem Kept.afterReads {s t : State} (h : Kept s t) {l : List ReadError} (n : Nat)
    (hl : (∀ k, s.errorsAt (.operand k) = []) → l = []) : Kept s (t.afterReads l n) where
  params := h.params
  cpu := by
    rw [State.afterReads_cpu, noteErrors_eq]
    exact ⟨h.cpu.pn, h.cpu.interval, h.cpu.vl, h.cpu.cln, h.cpu.mode, by rw [h.cpu.flags], h.cpu.iba, h.cpu.ila,
      h.cpu.dba, h.cpu.dla⟩
  me := fun hs => by rw [hl hs]; exact h.me hs
  others := h.others
  channels := h.channels
  writes := h.writes

/-- An operand range error adds ORE. -/
theorem Kept.raiseOre {s t : State} (h : Kept s t) : Kept s (t.withCpu t.cpu.raiseOre) where
  params := h.params
  cpu := ⟨h.cpu.pn, h.cpu.interval, h.cpu.vl, h.cpu.cln, h.cpu.mode, by
    rw [State.withCpu_cpu, Cpu.raiseOre, h.cpu.flags], h.cpu.iba, h.cpu.ila, h.cpu.dba, h.cpu.dla⟩
  me := h.me
  others := h.others
  channels := h.channels
  writes := h.writes

theorem Kept.afterBlock {s t : State} (h : Kept s t) (out : Bool) (n : Nat) : Kept s (t.afterBlock out n) := by
  cases out with
  | false => exact h
  | true => exact (h.registers (u := t.drawn n) rfl rfl).raiseOre

/-- Remembering references keeps everything else. -/
theorem Kept.withRefs (s : State) (refs : List Ref) : Kept s (s.withCpu { s.cpu with refs := refs }) :=
  (Kept.refl s).registers rfl rfl

/-- Words written in the data range. -/
theorem Kept.memWrites {s : State} (refs : List Ref) {l : List (Option (Nat × Word))}
    (hl : ∀ p, some p ∈ l → s.cpu.dba.toNat ≤ p.1 ∧ p.1 < s.cpu.dla.toNat) :
    Kept s ((s.withCpu { s.cpu with refs := refs }).memWrites l) := by
  have hframe := memWrites_frame s l
  rw [memWrites_withCpu]
  exact {
    params := by rw [hframe]; rfl
    cpu := (CpuKept.refl _ _).of_guarded rfl
    me := fun _ => rfl
    others := by rw [hframe]; exact List.forall₂_same.mpr fun _ _ => rfl
    channels := by rw [hframe]; rfl
    writes := ⟨l, hl, rfl, rfl, rfl⟩ }

/-! ## Scalar references -/

theorem dataRead_kept {s t : State} {ea : Addr} {w : Word} (h : s.dataRead ea = .ok (w, t)) :
    Kept s t ∧ t.mem = s.mem := by
  rcases dataRead_ok h with ⟨-, -, rfl⟩ | ⟨refs, -, rfl⟩
  · exact ⟨((Kept.refl s).registers (u := s.drawn 1) rfl rfl).raiseOre, rfl⟩
  · exact ⟨(Kept.withRefs s refs).afterReads 1 fun hs => hs 0, rfl⟩

/-- A scalar read sees no word outside the range. -/
theorem dataRead_withMem {s : State} {m : Memory} (hm : SameInRange s m s.mem) (ea : Addr) :
    (s.withMem m).dataRead ea = (s.dataRead ea).map fun r => (r.1, r.2.withMem m) := by
  have hloc : (s.withMem m).locate ea = s.locate ea := rfl
  unfold State.dataRead
  rw [hloc]
  cases hx : s.locate ea with
  | error e => rfl
  | ok x =>
    cases x with
    | none => rfl
    | some a =>
      obtain ⟨hlo, hhi⟩ := locate_in_range hx
      simp only [claim_withMem]
      cases hc : s.claim [{ addr := a, block := false, write := false }] with
      | error e => rfl
      | ok t =>
        obtain ⟨-, rfl⟩ := claim_ok.mp hc
        simp only [Except.map, State.withMem_mem, State.withCpu_mem, hm a hlo hhi]
        rfl

/-- A result of writes in `s` and one with another memory: the first keeps what is to be kept, and they are alike. -/
inductive WritesAlike (s : State) : Except Stop State → Except Stop State → Prop where
  | error (e : Stop) : WritesAlike s (.error e) (.error e)
  | ok (t : State) (n : Memory) (hk : Kept s t) (hn : SameInRange s n t.mem) :
    WritesAlike s (.ok t) (.ok (t.withMem n))

theorem dataWrite_alike {s : State} {m : Memory} (hm : SameInRange s m s.mem) (ea : Addr) (v : Word) :
    WritesAlike s (s.dataWrite ea v) ((s.withMem m).dataWrite ea v) := by
  have hloc : (s.withMem m).locate ea = s.locate ea := rfl
  unfold State.dataWrite
  rw [hloc]
  cases hx : s.locate ea with
  | error e => exact .error e
  | ok x =>
    cases x with
    | none => exact .ok _ m (Kept.refl s).raiseOre hm
    | some a =>
      simp only [claim_withMem]
      cases hc : s.claim [{ addr := a, block := false, write := true }] with
      | error e => exact .error e
      | ok t =>
        obtain ⟨-, rfl⟩ := claim_ok.mp hc
        refine .ok _ (Memory.writeWord m a v) (Kept.memWrites (l := [some (a, v)]) _ fun p hp => ?_) (hm.writeWord a v)
        obtain rfl : p = (a, v) := by simpa using hp
        exact locate_in_range hx

/-! ## Block references -/

theorem blockErrors_eq_nil {s : State} (h : ∀ k, s.errorsAt (.operand k) = []) (n : Nat) (l : List (Option Nat)) :
    s.blockErrors n l = [] := by
  induction l generalizing n with
  | nil => rfl
  | cons x rest ih => cases x <;> simp [State.blockErrors, h, ih]

theorem blockRead_kept {s t : State} {eas : List Addr} {ws : List (Option Word)} (h : s.blockRead eas = .ok (ws, t)) :
    Kept s t ∧ t.mem = s.mem := by
  unfold State.blockRead at h
  cases hl : s.locateAll eas with
  | error e => rw [hl] at h; cases h
  | ok l =>
    simp only [hl] at h
    cases hc : s.claim (refsOf true false l) with
    | error e => rw [hc] at h; cases h
    | ok u =>
      obtain ⟨-, rfl⟩ := claim_ok.mp hc
      rw [hc] at h
      obtain ⟨-, rfl⟩ := Prod.mk.inj (Except.ok.inj h)
      exact ⟨((Kept.withRefs s _).afterBlock _ _).afterReads _ fun hs => blockErrors_eq_nil hs 0 l, by simp⟩

/-- A block read sees no word outside the range. -/
theorem blockRead_withMem {s : State} {m : Memory} (hm : SameInRange s m s.mem) (eas : List Addr) :
    (s.withMem m).blockRead eas = (s.blockRead eas).map fun r => (r.1, r.2.withMem m) := by
  unfold State.blockRead
  rw [locateAll_withMem]
  cases hl : s.locateAll eas with
  | error e => rfl
  | ok l =>
    simp only [claim_withMem]
    cases hc : s.claim (refsOf true false l) with
    | error e => rfl
    | ok u =>
      obtain ⟨-, rfl⟩ := claim_ok.mp hc
      simp only [Except.map, blockErrors_withMem]
      rw [blockElems_withMem]
      · cases someOut l <;> rfl
      · intro a ha
        obtain ⟨hlo, hhi⟩ := locateAll_in_range hl a ha
        exact hm a hlo hhi

theorem blockWrite_alike {s : State} {m : Memory} (hm : SameInRange s m s.mem) (sc : Bool) (eas : List Addr)
    (vals : List Word) :
    WritesAlike s (s.blockWrite sc eas vals) ((s.withMem m).blockWrite sc eas vals) := by
  unfold State.blockWrite
  rw [locateAll_withMem]
  cases hl : s.locateAll eas with
  | error e => exact .error e
  | ok l =>
    simp only [claim_withMem]
    cases hc : s.claim (refsOf true true l) with
    | error e => exact .error e
    | ok u =>
      obtain ⟨-, rfl⟩ := claim_ok.mp hc
      simp only [Except.map, blockPuts_withMem]
      generalize hputs : State.blockPuts _ (someOut l) sc [] 0 (l.zip vals) = puts
      have hin : ∀ p, some p ∈ puts → s.cpu.dba.toNat ≤ p.1 ∧ p.1 < s.cpu.dla.toNat := fun p hp => by
        obtain ⟨e, he⟩ := blockPuts_mem _ _ _ _ _ _ p (hputs ▸ hp)
        exact locateAll_in_range hl p.1 (List.of_mem_zip (List.mem_of_getElem? he)).1
      obtain ⟨n, hwrites, hn⟩ :=
        memWrites_withMem (t := s.withCpu { s.cpu with refs := (refsOf true true l).foldr addRef s.cpu.refs }) hm puts
      have hk := (Kept.memWrites ((refsOf true true l).foldr addRef s.cpu.refs) hin).afterBlock (someOut l) l.length
      rw [hwrites, afterBlock_withMem]
      rw [← State.afterBlock_mem _ (someOut l) l.length] at hn
      generalize State.afterBlock _ _ _ = w at hk hn ⊢
      split
      · exact .ok (w.drawn l.length) n (hk.registers rfl rfl) hn
      · exact .ok w n hk hn

end Sys2Proof.Machine
end

section
/-! Every instruction but the exits is confined (10_state.md R36, 60_exceptions.md R540), and what follows of the
program's registers, of stores and of loads. -/

namespace Sys2Proof.Machine

open Sys2Proof

/-! ## Instructions with operand references (42_memory_transfer.md) -/

theorem confined_writes {s : State} {r r' : Except Stop State} {k k' : State → Out} (h : WritesAlike s r r')
    (hk : ∀ t n, Kept s t → SameInRange s n t.mem → Confined s (k t) (k' (t.withMem n))) :
    Confined s (orStop r k) (orStop r' k') := by
  cases h with
  | error e => exact confined_stop s e
  | ok t n ht hn => exact hk t n ht hn

section
variable {s : State} {m : Memory} (hm : SameInRange s m s.mem)
include hm

omit hm in
theorem confined_withDisp22 (jkm : BitVec 22) {k k' : Addr → Out} (h : ∀ d, Confined s (k d) (k' d)) :
    Confined s (withDisp22 jkm k) (withDisp22 jkm k') := by
  unfold withDisp22
  cases disp22 jkm with
  | none => exact confined_refused s _
  | some d => exact h d

theorem confined_loadA (i : BitVec 3) (ea : Addr) (n : Nat) :
    Confined s (loadA i ea n s) (loadA i ea n (s.withMem m)) :=
  confined_orStop _ (dataRead_withMem hm ea) fun ⟨w, t⟩ h =>
    have ⟨hk, hmem⟩ := dataRead_kept h
    confined_next (n := m) (by rw [State.advance_mem, State.writeA_mem, hmem]; exact hm) (hk.registers rfl rfl) rfl

theorem confined_loadS (i : BitVec 3) (ea : Addr) (n : Nat) :
    Confined s (loadS i ea n s) (loadS i ea n (s.withMem m)) :=
  confined_orStop _ (dataRead_withMem hm ea) fun ⟨w, t⟩ h =>
    have ⟨hk, hmem⟩ := dataRead_kept h
    confined_next (n := m) (by rw [State.advance_mem, State.writeS_mem, hmem]; exact hm) (hk.registers rfl rfl) rfl

theorem confined_storeA (i : BitVec 3) (ea : Addr) (n : Nat) :
    Confined s (storeA i ea n s) (storeA i ea n (s.withMem m)) :=
  confined_writes (dataWrite_alike hm ea _) fun _ _ hk hn => confined_next hn (hk.registers rfl rfl) rfl

theorem confined_storeS (i : BitVec 3) (ea : Addr) (n : Nat) :
    Confined s (storeS i ea n s) (storeS i ea n (s.withMem m)) :=
  confined_writes (dataWrite_alike hm ea _) fun _ _ hk hn => confined_next hn (hk.registers rfl rfl) rfl

omit hm in
theorem confined_withBlock (i : BitVec 3) (jk : BitVec 6) {k k' : Nat → Out} (h : ∀ n, Confined s (k n) (k' n)) :
    Confined s (s.withBlock i jk k) ((s.withMem m).withBlock i jk k') :=
  confined_ite (fun _ => h _) fun _ => confined_refused s _

/-- A block read whose words go to unguarded registers. -/
theorem confined_blockRead (eas : List Addr) {k k' : List (Option Word) × State → State}
    (hc : ∀ r, (k r).cpu.guarded = r.2.cpu.guarded) (hk : ∀ r, k r = { r.2 with cpu := (k r).cpu })
    (hk' : ∀ r, k' (r.1, r.2.withMem m) = (k r).withMem m) :
    Confined s (orStop (s.blockRead eas) fun r => (k r).done 1)
      (orStop ((s.withMem m).blockRead eas) fun r => (k' r).done 1) := by
  refine confined_orStop _ (blockRead_withMem hm eas) fun r h => ?_
  obtain ⟨hkept, hmem⟩ := blockRead_kept h
  refine confined_next ?_ (hkept.registers (hc r) ?_) (congrArg (State.advance · 1) (hk' r))
  · rw [State.advance_mem, hk, hmem]; exact hm
  · rw [hk]; rfl

theorem confined_blockWrite (sc : Bool) (eas : List Addr) (vals : List Word) {k : State → State}
    (hc : ∀ t, (k t).cpu.guarded = t.cpu.guarded) (hk : ∀ t, k t = { t with cpu := (k t).cpu })
    (hk' : ∀ t n, k (t.withMem n) = (k t).withMem n) :
    Confined s (orStop (s.blockWrite sc eas vals) fun t => (k t).done 1)
      (orStop ((s.withMem m).blockWrite sc eas vals) fun t => (k t).done 1) := by
  refine confined_writes (blockWrite_alike hm sc eas vals) fun t n hkept hn => ?_
  refine confined_next ?_ (hkept.registers (hc t) ?_) (congrArg (State.advance · 1) (hk' t n))
  · rw [State.advance_mem, hk]; exact hn
  · rw [hk]; rfl

theorem confined_ldBBlk (i : BitVec 3) (jk : BitVec 6) :
    Confined s (execLdBBlk i jk s) (execLdBBlk i jk (s.withMem m)) :=
  confined_withBlock i jk fun _ =>
    confined_blockRead hm _ (fun _ => Cpu.guarded_load_b _ _) (fun _ => rfl) fun _ => rfl

theorem confined_ldTBlk (i : BitVec 3) (jk : BitVec 6) :
    Confined s (execLdTBlk i jk s) (execLdTBlk i jk (s.withMem m)) :=
  confined_withBlock i jk fun _ =>
    confined_blockRead hm _ (fun _ => Cpu.guarded_load_t _ _) (fun _ => rfl) fun _ => rfl

theorem confined_stBBlk (i : BitVec 3) (jk : BitVec 6) :
    Confined s (execStBBlk i jk s) (execStBBlk i jk (s.withMem m)) :=
  confined_withBlock i jk fun _ =>
    confined_blockWrite hm false _ _ (k := id) (fun _ => rfl) (fun _ => rfl) fun _ _ => rfl

theorem confined_stTBlk (i : BitVec 3) (jk : BitVec 6) :
    Confined s (execStTBlk i jk s) (execStTBlk i jk (s.withMem m)) :=
  confined_withBlock i jk fun _ =>
    confined_blockWrite hm false _ _ (k := id) (fun _ => rfl) (fun _ => rfl) fun _ _ => rfl

theorem confined_loadV (i : BitVec 3) (eas : List Addr) :
    Confined s (loadV i eas s) (loadV i eas (s.withMem m)) :=
  confined_unless fun _ => confined_blockRead hm eas (fun _ => rfl) (fun _ => rfl) fun _ => rfl

theorem confined_storeV (sc : Bool) (j : BitVec 3) (eas : List Addr) :
    Confined s (storeV sc j eas s) (storeV sc j eas (s.withMem m)) :=
  confined_unless fun _ => confined_blockWrite hm sc eas _ (fun _ => rfl) (fun _ => rfl) fun _ _ => rfl

/-! ## Every instruction -/

/-- An instruction that is no exit keeps what `Kept` says, and does not see the memory outside the data range. -/
theorem exec_confined (i : Instr) (hex : i ≠ .ex) (herr : i ≠ .err) :
    Confined s (exec i s) (exec i (s.withMem m)) := by
  cases i with
  | ex => exact absurd rfl hex
  | err => exact absurd rfl herr
  | aImm24 | aImm22 | aImm22c | aImm32 | aImm32c | aImm6 | aFromS | aFromVl | aFromB | bFromA | aAdd | aSub | aMul
  | aPop | aParity | aLzc => exact confined_registers hm rfl rfl rfl
  | sImm22 | sImm22c | sImm32 | sImm32c | sMaskr | sMaskl | sFc06 | sFc04 | sFc1 | sFc2 | sFc4 | sFromA | sFromASx
  | sFromAFlt | sFromRtc | sFromVm | sFromSr | sFromT | tFromS | vmFromS | sAdd | sSub | sAnd | sAndn | sXor | sXnor
  | sMerge | sOr | s0Shl | s0Shr | sShl | sShr | sDshl | sDshr => exact confined_registers hm rfl rfl rfl
  | dcbw | ecbw | dsbo | esbo | cmr | pass | jExp | rExp => exact confined_registers hm rfl rfl rfl
  | dbm | ebm | efi | dfi | eri | dri => exact confined_writeM hm _ rfl
  | sFadd | sFsub | sFmulH | sFmulR | sFiter | sFrecip => exact confined_scalarFp hm _ _
  | sFmul => exact confined_sFmul hm _ _ _
  | vAddSv | vAddVv | vSubSv | vSubVv | vAndSv | vAndVv | vOrSv | vOrVv | vXorSv | vXorVv | vMergeSv | vMergeVv | vShl
  | vShr | vPop | vParity => exact confined_vectorOp hm _ _
  | vDshl | vDshr => exact confined_unless fun _ => confined_vectorOp hm _ _
  | vFaddSv | vFaddVv | vFsubSv | vFsubVv | vFmulHSv | vFmulHVv | vFmulRSv | vFmulRVv | vFrecip | vFiterSv | vFiterVv =>
    exact confined_vectorFp hm _ _
  | vFmulSv | vFmulVv => exact confined_vectorMul hm _ _ _
  | vImul32 => exact confined_vImul32 hm _ _ _
  | vmTestZ | vmTestN | vmTestP | vmTestM => exact confined_maskTest hm _ _
  | vmCidxZ | vmCidxN | vmCidxP | vmCidxM => exact confined_compressedIndex hm _ _ _
  | aFromSb | sFromSm | sFromSt | sbFromA | smFromS | stFromS | smClr | smSet =>
    unfold exec
    refine confined_shared fun _ => ?_
    exact confined_registers hm rfl rfl rfl
  | smTs =>
    unfold exec
    refine confined_shared fun _ => ?_
    exact confined_ite (fun _ => confined_registers hm rfl rfl rfl) fun _ => confined_registers hm rfl rfl rfl
  | sFromVelem | velemFromS =>
    unfold exec
    refine confined_withElem fun _ => ?_
    exact confined_registers hm rfl rfl rfl
  | vlFromA => exact confined_vlFromA hm _
  | jB => exact confined_unless fun _ => confined_registers hm rfl rfl rfl
  | jaz | jan | jap | jam | jsz | jsn | jsp | jsm => exact confined_branchIf hm _ _
  | ldAX => exact confined_withDisp22 _ fun _ => confined_loadA hm _ _ _
  | ldAY => exact confined_loadA hm _ _ _
  | stAX => exact confined_withDisp22 _ fun _ => confined_storeA hm _ _ _
  | stAY => exact confined_storeA hm _ _ _
  | ldSX => exact confined_withDisp22 _ fun _ => confined_loadS hm _ _ _
  | ldSY => exact confined_loadS hm _ _ _
  | stSX => exact confined_withDisp22 _ fun _ => confined_storeS hm _ _ _
  | stSY => exact confined_storeS hm _ _ _
  | ldBBlk => exact confined_ldBBlk hm _ _
  | ldTBlk => exact confined_ldTBlk hm _ _
  | stBBlk => exact confined_stBBlk hm _ _
  | stTBlk => exact confined_stTBlk hm _ _
  | ldV => exact confined_loadV hm _ _
  | ldVGather => exact confined_unless fun _ => confined_loadV hm _ _
  | stV | stVScatter => exact confined_storeV hm _ _ _
  | chCa | chCl => exact confined_monitorOnly hm <| confined_withChannel _ fun _ => confined_unless fun _ =>
      confined_setChannel hm _ _ fun _ => rfl
  | chCi | chMc => exact confined_monitorOnly hm <| confined_withChannel _ fun _ =>
      confined_setChannel hm _ _ fun _ => rfl
  | xaFromA | pciLoad => exact confined_monitorOnly hm <| confined_unless fun _ => confined_registers hm rfl rfl rfl
  | rtcLoad | cci | eci | dci | cipi => exact confined_monitorOnly hm <| confined_registers hm rfl rfl rfl
  | sipi => exact confined_monitorOnly hm <| confined_unless fun _ => confined_unless fun _ => confined_requestIpi hm _
  | clnLoad => exact confined_clnLoad hm _
  | aFromCi => exact confined_aFromCi hm _
  | aFromCa | aFromCe => exact confined_withChannel _ fun _ => confined_registers hm rfl rfl rfl

end

/-- What an instruction that is no exit keeps. -/
theorem exec_kept {i : Instr} {s t : State} (hex : i ≠ .ex) (herr : i ≠ .err) (h : exec i s = .next t) : Kept s t :=
  (exec_confined (m := s.mem) (fun _ _ _ => rfl) i hex herr).kept t h

/-- Settles O9: the guarded registers of `CpuKept`. -/
theorem onlyExchangesChangeTheProgram : Obligations.OnlyExchangesChangeTheProgram := by
  intro i s t hex herr h
  have hk := exec_kept hex herr h
  exact ⟨hk.cpu.mode, hk.cpu.flags, hk.me, hk.cpu.iba, hk.cpu.ila, hk.cpu.dba, hk.cpu.dla⟩

/-- Settles O11: memory changes by a list of writes in the data range, none of which reaches the byte. -/
theorem storesStayInTheDataRange : Obligations.StoresStayInTheDataRange := by
  intro i s t hex herr h x hx
  obtain ⟨l, hl, hmem, -, -⟩ := (exec_kept hex herr h).writes
  rw [hmem]
  refine memWrites_byte s l x fun p hp hpx => ?_
  obtain ⟨hlo, hhi⟩ := hl p hp
  omega

/-- Settles O12: the outcomes with the two memories are alike. -/
theorem loadsSeeOnlyTheDataRange : Obligations.LoadsSeeOnlyTheDataRange := by
  intro i s m hex herr hm
  have halike := (exec_confined hm i hex herr).alike
  change OutAlike s (exec i s) (exec i { s with mem := m }) at halike
  generalize exec i s = o at halike ⊢
  generalize exec i { s with mem := m } = o' at halike ⊢
  cases halike with
  | next t n hn => exact ⟨n, rfl, hn⟩
  | fault r => rfl
  | refused r => rfl

end Sys2Proof.Machine
end

section
/-! The invariant (`State.Inv`): what it says of one CPU and of the record of writes, one rule for each operation, and
that every event, exchange, instruction and step keeps it. -/

namespace Sys2Proof.Machine

open Sys2Proof

/-! ## The parts of the invariant -/

/-- What the invariant says of one CPU, under the parameters and at a write clock. -/
structure Cpu.Sound (p : Params) (now : Nat) (c : Cpu) : Prop where
  vl : c.vl.toNat ≤ 64
  cln : c.cln.toNat ≤ p.ncluster
  pn : c.pn.toNat < p.ncpu
  interval : c.intervalStart ≤ now

/-- What the invariant says of memory and of the record of its writes. -/
structure State.Recorded (s : State) : Prop where
  mem : Memory.wf s.mem = true
  words : (s.writeLog.map fun e => e.1).Nodup
  stamps : ∀ e ∈ s.writeLog, e.2 < s.writeClock

theorem State.Inv.sound {s : State} (h : s.Inv) : ∀ c ∈ s.cpus, c.Sound s.params s.writeClock :=
  fun c hc => ⟨h.vl c hc, h.cln c hc, h.pn c hc, h.intervals c hc⟩

theorem State.Inv.recorded {s : State} (h : s.Inv) : s.Recorded := ⟨h.mem, h.words, h.stamps⟩

theorem inv_of_parts {s : State} (hp : s.params.wf = true) (hc : ∀ c ∈ s.cpus, c.Sound s.params s.writeClock)
    (hpn : (s.cpus.map Cpu.pn).Nodup) (hn : s.cpus.length = s.params.ncpu)
    (hch : (s.channels.map Channel.num).Nodup) (hr : s.Recorded) : s.Inv where
  mem := hr.mem
  params := hp
  vl c h := (hc c h).vl
  cln c h := (hc c h).cln
  pns := hpn
  pn c h := (hc c h).pn
  count := hn
  channels := hch
  words := hr.words
  stamps := hr.stamps
  intervals c h := (hc c h).interval

/-- A change of a CPU that keeps its number, and keeps it sound while the write clock goes from `now` to `later`. -/
def KeepsSound (p : Params) (now later : Nat) (c d : Cpu) : Prop :=
  d.pn = c.pn ∧ (c.Sound p now → d.Sound p later)

theorem map_pn_of_forall₂ {p : Params} {now later : Nat} {l k : List Cpu}
    (h : List.Forall₂ (KeepsSound p now later) l k) : k.map Cpu.pn = l.map Cpu.pn := by
  induction h with
  | nil => rfl
  | cons hcd _ ih => rw [List.map_cons, List.map_cons, ih, hcd.1]

theorem sound_of_forall₂ {p : Params} {now later : Nat} {l k : List Cpu}
    (h : List.Forall₂ (KeepsSound p now later) l k) (hl : ∀ c ∈ l, c.Sound p now) : ∀ d ∈ k, d.Sound p later := by
  induction h with
  | nil => simp
  | cons hcd _ ih =>
    obtain ⟨hhead, htail⟩ := List.forall_mem_cons.mp hl
    exact List.forall_mem_cons.mpr ⟨hcd.2 hhead, ih htail⟩

/-- Where the CPUs stay sound one by one, and the channels' numbers the same, the invariant rests on the record of
writes. -/
theorem State.Inv.of_forall₂ {s t : State} (h : s.Inv) (hp : t.params = s.params)
    (hc : List.Forall₂ (KeepsSound s.params s.writeClock t.writeClock) s.cpus t.cpus)
    (hch : t.channels.map Channel.num = s.channels.map Channel.num) (hr : t.Recorded) : t.Inv := by
  refine inv_of_parts ?_ ?_ ?_ ?_ ?_ hr
  · rw [hp]; exact h.params
  · rw [hp]; exact sound_of_forall₂ hc h.sound
  · rw [map_pn_of_forall₂ hc]; exact h.pns
  · rw [hp, ← hc.length_eq]; exact h.count
  · rw [hch]; exact h.channels

/-! ## CPUs that stay sound -/

/-- What the invariant looks at in a CPU. -/
def Cpu.key (c : Cpu) : BitVec 3 × BitVec 7 × BitVec 4 × Nat := (c.pn, c.vl, c.cln, c.intervalStart)

theorem keepsSound_of_key {p : Params} {now : Nat} {c d : Cpu} (h : d.key = c.key) : KeepsSound p now now c d := by
  simp only [Cpu.key, Prod.mk.injEq] at h
  obtain ⟨hpn, hvl, hcln, hint⟩ := h
  exact ⟨hpn, fun hc => ⟨hvl ▸ hc.vl, hcln ▸ hc.cln, hpn ▸ hc.pn, hint ▸ hc.interval⟩⟩

theorem keepsSound_mono {p : Params} {now later : Nat} (h : now ≤ later) (c : Cpu) : KeepsSound p now later c c :=
  ⟨rfl, fun hc => ⟨hc.vl, hc.cln, hc.pn, hc.interval.trans h⟩⟩

theorem noteErrors_key (c : Cpu) (l : List ReadError) : (c.noteErrors l).key = c.key := by rw [noteErrors_eq]; rfl

/-! ## Operations -/

/-- A step that changes CPUs alone, and nothing the invariant looks at in them. -/
theorem State.Inv.of_keys {s t : State} (h : s.Inv)
    (hc : List.Forall₂ (fun c d => d.key = c.key) s.cpus t.cpus)
    (ht : t = { s with cpu := t.cpu, others := t.others, rtc := t.rtc, clusters := t.clusters, draws := t.draws
                       agenda := t.agenda, readErrors := t.readErrors }) : t.Inv := by
  refine h.of_forall₂ (by rw [ht]) ?_ (by rw [ht]) ?_
  · have hclock : t.writeClock = s.writeClock := by rw [ht]
    rw [hclock]
    exact hc.imp fun _ _ => keepsSound_of_key
  · rw [ht]; exact ⟨h.mem, h.words, h.stamps⟩

theorem State.Inv.withCpu {s : State} (h : s.Inv) {c : Cpu} (hc : c.key = s.cpu.key) : (s.withCpu c).Inv :=
  h.of_keys (.cons hc (List.forall₂_same.mpr fun _ _ => rfl)) rfl

theorem cpus_updateCpu (s : State) (p : BitVec 3) (f : Cpu → Cpu) :
    (s.updateCpu p f).cpus = s.cpus.map fun c => if c.pn = p then f c else c := rfl

theorem State.Inv.updateCpu {s : State} (h : s.Inv) (p : BitVec 3) {f : Cpu → Cpu} (hf : ∀ c, (f c).key = c.key) :
    (s.updateCpu p f).Inv := by
  refine h.of_keys ?_ rfl
  rw [cpus_updateCpu, List.forall₂_map_right_iff]
  refine List.forall₂_same.mpr fun c _ => ?_
  split
  · exact hf c
  · rfl

theorem State.Inv.drawn {s : State} (h : s.Inv) (n : Nat) : (s.drawn n).Inv :=
  h.of_keys (List.forall₂_same.mpr fun _ _ => rfl) rfl

theorem State.Inv.afterReads {s : State} (h : s.Inv) (l : List ReadError) (n : Nat) : (s.afterReads l n).Inv :=
  (h.withCpu (noteErrors_key s.cpu l)).drawn _

theorem State.Inv.setChannel {s : State} (h : s.Inv) (ch : Addr) {f : Channel → Channel}
    (hf : ∀ c, (f c).num = c.num) : (s.setChannel ch f).Inv := by
  refine h.of_forall₂ rfl (List.forall₂_same.mpr fun c _ => keepsSound_mono le_rfl c) ?_
    ⟨h.mem, h.words, h.stamps⟩
  rw [State.setChannel_channels, List.map_map]
  refine List.map_congr_left fun c _ => ?_
  simp only [Function.comp_apply]
  split
  · exact hf c
  · rfl

/-! ## Writes -/

theorem State.Recorded.memWrite {s : State} (h : s.Recorded) (a : Nat) (v : Word) : (s.memWrite a v).Recorded where
  mem := writeWord_wf _ _ _ h.mem
  words := by
    rw [State.memWrite_writeLog, List.map_cons, List.nodup_cons]
    refine ⟨?_, h.words.sublist (List.filter_sublist.map _)⟩
    simp [List.mem_filter]
  stamps := by
    rw [State.memWrite_writeLog, State.memWrite_writeClock]
    refine List.forall_mem_cons.mpr ⟨Nat.lt_succ_self _, fun e he => ?_⟩
    exact (h.stamps e (List.mem_of_mem_filter he)).trans (Nat.lt_succ_self _)

theorem recorded_memWrites {s : State} (h : s.Recorded) (l : List (Option (Nat × Word))) :
    (s.memWrites l).Recorded ∧ s.writeClock ≤ (s.memWrites l).writeClock := by
  induction l generalizing s with
  | nil => exact ⟨h, le_rfl⟩
  | cons x rest ih =>
    cases x with
    | none => exact ih h
    | some p =>
      obtain ⟨hr, hle⟩ := ih (h.memWrite p.1 p.2)
      exact ⟨hr, (Nat.le_succ _).trans hle⟩

theorem State.Inv.memWrite {s : State} (h : s.Inv) (a : Nat) (v : Word) : (s.memWrite a v).Inv :=
  h.of_forall₂ rfl (List.forall₂_same.mpr fun c _ => keepsSound_mono (Nat.le_succ _) c) rfl (h.recorded.memWrite a v)

theorem State.Inv.writeImage {s : State} (h : s.Inv) (a : Nat) (img : PackageImage) (n : Nat) :
    (s.writeImage a img n).Inv := by
  induction n with
  | zero => exact h
  | succ k ih => exact ih.memWrite _ _

/-! ## The exchange sequence (60_exceptions.md R531) -/

/-- A package with an admissible VL and cluster number gives a sound CPU. -/
theorem load_sound {p : Params} {now : Nat} {c : Cpu} {lay : XPLayout} {grain : Nat} {img : PackageImage}
    (hc : c.Sound p now) (hvl : ((readField lay img .vl).setWidth 7 : BitVec 7).toNat ≤ 64)
    (hcln : ((readField lay img .cln).setWidth 4 : BitVec 4).toNat ≤ p.ncluster) :
    (c.load lay grain now img).Sound p now := ⟨hvl, hcln, hc.pn, le_rfl⟩

/-- Loading such a package keeps the invariant, whatever the errors of its reads. -/
theorem State.Inv.load {s : State} (h : s.Inv) {img : PackageImage} (l : List ReadError)
    (hvl : ((readField s.params.xp img .vl).setWidth 7 : BitVec 7).toNat ≤ 64)
    (hcln : ((readField s.params.xp img .cln).setWidth 4 : BitVec 4).toNat ≤ s.params.ncluster) :
    (s.withCpu ((s.cpu.load s.params.xp s.params.blGrain s.writeClock img).noteErrors l)).Inv := by
  generalize hd : s.cpu.load s.params.xp s.params.blGrain s.writeClock img = d
  have hpn : d.pn = s.cpu.pn := by rw [← hd]; rfl
  have hload : (s.withCpu d).Inv :=
    h.of_forall₂ rfl (.cons ⟨hpn, fun hc => hd ▸ load_sound hc hvl hcln⟩
      (List.forall₂_same.mpr fun c _ => keepsSound_mono le_rfl c)) rfl ⟨h.mem, h.words, h.stamps⟩
  exact hload.withCpu (noteErrors_key d l)

theorem exchange_keeps_inv {s t : State} (h : s.Inv) (ht : s.exchangeSequence = .next t) : t.Inv := by
  obtain ⟨-, -, hvl, hcln, rfl⟩ := exchange_next.mp ht
  have hw := h.writeImage s.cpu.packageBase s.outgoing 16
  have hparams := writeImage_params s s.cpu.packageBase s.outgoing 16
  unfold State.swapped
  generalize s.writeImage s.cpu.packageBase s.outgoing 16 = w at hw hparams ⊢
  rw [← hparams, ← State.drawn_params w 32] at hvl hcln
  exact (hw.drawn 32).load (s.packageErrors 16) hvl hcln

/-! ## Instructions -/

/-- What an instruction that is no exit keeps is enough. -/
theorem Kept.inv {s t : State} (hk : Kept s t) (h : s.Inv) : t.Inv := by
  obtain ⟨l, -, hmem, hlog, hclock⟩ := hk.writes
  obtain ⟨hr, hle⟩ := recorded_memWrites h.recorded l
  rw [← hclock] at hle
  refine h.of_forall₂ hk.params (.cons ⟨hk.cpu.pn, fun hc => ⟨?_, ?_, ?_, ?_⟩⟩ (hk.others.imp fun c d hd => ?_))
    hk.channels ⟨hmem ▸ hr.mem, hlog ▸ hr.words, by rw [hlog, hclock]; exact hr.stamps⟩
  · exact hk.cpu.vl.elim (fun e => e ▸ hc.vl) id
  · exact hk.cpu.cln.elim (fun e => e ▸ hc.cln) id
  · exact hk.cpu.pn ▸ hc.pn
  · exact hk.cpu.interval ▸ hc.interval.trans hle
  · rw [hd]
    exact ⟨rfl, fun hc => ⟨hc.vl, hc.cln, hc.pn, hc.interval.trans hle⟩⟩

theorem exec_keeps_inv {i : Instr} {s t : State} (h : s.Inv) (ht : exec i s = .next t) : t.Inv := by
  by_cases hex : i = .ex
  · subst hex
    exact exchange_keeps_inv (s := (s.advance 1).withCpu (s.advance 1).cpu.raiseNex) (h.withCpu rfl) ht
  · by_cases herr : i = .err
    · subst herr
      exact exchange_keeps_inv (s := (s.advance 1).withCpu (s.advance 1).cpu.raiseEex) (h.withCpu rfl) ht
    · exact (exec_kept hex herr ht).inv h

/-! ## Events (log 3) -/

theorem Cpu.tick_key {c d : Cpu} (h : c.tick = .ok d) : d.key = c.key := by
  unfold Cpu.tick at h
  split at h
  · cases h
  · split at h <;> cases h <;> rfl

theorem tickAll_ok {l ds : List Cpu} (h : tickAll l = .ok ds) : List.Forall₂ (fun c d => c.tick = .ok d) l ds := by
  induction l generalizing ds with
  | nil => cases h; exact .nil
  | cons c rest ih =>
    rw [tickAll] at h
    cases hc : c.tick with
    | error e => rw [hc] at h; cases h
    | ok d =>
      cases hr : tickAll rest with
      | error e => rw [hc, hr] at h; cases h
      | ok xs =>
        rw [hc, hr] at h
        cases h
        exact .cons hc (ih hr)

/-- A tick that goes on ticks every CPU's clock and adds 1 to RTC. -/
theorem tick_ok {s t : State} (h : s.tick = .ok t) :
    List.Forall₂ (fun c d => c.tick = .ok d) s.cpus t.cpus ∧
      t = { s with cpu := t.cpu, others := t.others, rtc := s.rtc + 1 } := by
  unfold State.tick at h
  cases hc : s.cpu.tick with
  | error e => rw [hc] at h; cases h
  | ok c =>
    cases hr : tickAll s.others with
    | error e => rw [hc, hr] at h; cases h
    | ok ds =>
      rw [hc, hr] at h
      cases h
      exact ⟨.cons hc (tickAll_ok hr), rfl⟩

theorem State.Inv.tick {s t : State} (h : s.Inv) (ht : s.tick = .ok t) : t.Inv := by
  obtain ⟨hc, hframe⟩ := tick_ok ht
  refine h.of_keys (hc.imp fun _ _ => Cpu.tick_key) ?_
  rw [hframe]

/-- A turn permutes the CPUs. -/
theorem cpus_turn (s : State) : s.turn.cpus.Perm s.cpus := by
  unfold State.turn
  cases hs : s.others with
  | nil => exact .refl _
  | cons c rest => simpa [State.cpus, hs] using List.perm_append_singleton s.cpu (c :: rest)

theorem State.Inv.turn {s : State} (h : s.Inv) : s.turn.Inv := by
  have hperm := cpus_turn s
  have hframe : s.turn = { s with cpu := s.turn.cpu, others := s.turn.others } := by
    unfold State.turn
    cases s.others <;> rfl
  generalize s.turn = t at hperm hframe ⊢
  have hp : t.params = s.params := by rw [hframe]
  have hw : t.writeClock = s.writeClock := by rw [hframe]
  refine inv_of_parts ?_ (fun c hc => ?_) ?_ ?_ ?_ ?_
  · rw [hp]; exact h.params
  · rw [hp, hw]; exact h.sound c (hperm.mem_iff.mp hc)
  · exact (hperm.map Cpu.pn).nodup_iff.mpr h.pns
  · rw [hp, hperm.length_eq]; exact h.count
  · rw [hframe]; exact h.channels
  · rw [hframe]; exact ⟨h.mem, h.words, h.stamps⟩

theorem State.Inv.chanStep {s t : State} (h : s.Inv) {ch : Addr} {w : Word} (ht : s.chanStep ch w = .ok t) : t.Inv := by
  have hnext : ∀ d : Channel, ({ d with ca := d.ca + 1 } : Channel).num = d.num := fun _ => rfl
  unfold State.chanStep at ht
  split at ht
  · cases ht; exact h
  · split at ht
    · cases ht; exact h
    · split at ht
      · cases ht; exact h.setChannel ch fun _ => rfl
      · split at ht
        · cases ht
        · split at ht
          · cases ht; exact (h.setChannel ch hnext).memWrite _ _
          · cases ht; exact h.setChannel ch hnext

theorem State.Inv.chanReadError {s t : State} (h : s.Inv) {ch : Addr} {p : BitVec 3} {kind : MemErrKind}
    {info : MemErrInfo} (ht : s.chanReadError ch p kind info = .ok t) : t.Inv := by
  unfold State.chanReadError at ht
  split at ht
  · cases ht; exact h
  · split at ht
    · exact (h.updateCpu p (f := fun c => c.noteMemError kind info) fun _ => rfl).chanStep ht
    · cases ht; exact h

theorem Cpu.parityError_key (c : Cpu) (reg : ParityReg) (info : MemErrInfo) (d : Word) :
    (c.parityError reg info d).key = c.key := by
  cases reg <;> rfl

theorem State.Inv.happen {s t : State} (h : s.Inv) {e : Event} (ht : s.happen e = .ok t) : t.Inv := by
  cases e with
  | tick => exact h.tick ht
  | turn => cases ht; exact h.turn
  | mcu p => cases ht; exact h.updateCpu p fun _ => rfl
  | readError e => cases ht; exact h.of_keys (List.forall₂_same.mpr fun _ _ => rfl) rfl
  | parityError p reg info => cases ht; exact (h.updateCpu p fun c => c.parityError_key reg info _).drawn 1
  | chanStep ch w => exact h.chanStep ht
  | chanReadError ch p kind info => exact h.chanReadError ht
  | chanError ch => cases ht; exact h.setChannel ch fun c => by split <;> rfl
  | readyHeld ch => cases ht; exact h.setChannel ch fun c => by cases hd : c.dir <;> rfl
  | deadstart p xa => cases ht; exact h.updateCpu p fun _ => rfl

theorem State.Inv.happenAll {s t : State} (h : s.Inv) {l : List Event} (ht : s.happenAll l = .ok t) : t.Inv := by
  induction l generalizing s with
  | nil => cases ht; exact h
  | cons e rest ih =>
    rw [State.happenAll] at ht
    cases he : s.happen e with
    | error x => rw [he] at ht; cases ht
    | ok u => rw [he] at ht; exact ih (h.happen he) ht

theorem State.Inv.deliver {s t : State} (h : s.Inv) (ht : s.deliver = .ok t) : t.Inv := by
  have hkeep : ∀ a, ({ s with agenda := a, readErrors := [] } : State).Inv := fun _ =>
    h.of_keys (List.forall₂_same.mpr fun _ _ => rfl) rfl
  unfold State.deliver at ht
  split at ht
  · cases ht; exact hkeep s.agenda
  · exact (hkeep _).happenAll ht

/-! ## The boundary (60_exceptions.md R530) -/

theorem State.Inv.routeIo {s : State} (h : s.Inv) : s.routeIo.Inv := by
  unfold State.routeIo
  split
  · exact h
  · exact h.updateCpu _ (f := Cpu.raiseIoi) fun _ => rfl
  · exact (h.updateCpu _ (f := Cpu.raiseIoi) fun _ => rfl).drawn 1

theorem Cpu.seeDeadlock_key (n : BitVec 4) (c : Cpu) : (c.seeDeadlock n).key = c.key := by
  unfold Cpu.seeDeadlock
  split <;> rfl

theorem State.Inv.checkDeadlock {s : State} (h : s.Inv) : s.checkDeadlock.Inv := by
  unfold State.checkDeadlock
  split
  · refine h.of_keys (.cons (Cpu.seeDeadlock_key _ _) ?_) rfl
    rw [List.forall₂_map_right_iff]
    exact List.forall₂_same.mpr fun c _ => Cpu.seeDeadlock_key _ c
  · exact h

theorem State.Inv.atBoundary {s : State} (h : s.Inv) : s.atBoundary.Inv :=
  (h.withCpu (c := s.cpu.seeRequests) rfl).routeIo.checkDeadlock

theorem State.Inv.fetchParcel {s t : State} {n : Nat} {p : Parcel} (h : s.Inv)
    (ht : s.fetchParcel n = .ok (some (p, t))) : t.Inv := by
  unfold State.fetchParcel at ht
  simp only at ht
  repeat' split at ht
  all_goals cases ht
  exact h.afterReads _ 1

/-- Fetching a parcel goes on from a state that meets the invariant. -/
theorem withParcel_keeps_inv {s t : State} {n : Nat} {k : Parcel → State → Out} (h : s.Inv)
    (hk : ∀ p u, u.Inv → k p u = .next t → t.Inv) (ht : s.withParcel n k = .next t) : t.Inv := by
  obtain ⟨x, hx, hnext⟩ := orStop_next.mp ht
  cases x with
  | none =>
    simp only [State.programRange] at hnext
    split at hnext
    · cases hnext; exact h.withCpu rfl
    · cases hnext
  | some q => exact hk q.1 q.2 (h.fetchParcel hx) hnext

theorem issueDecoded_keeps_inv {s t : State} {p m n : Parcel} (h : s.Inv) (ht : s.issueDecoded p m n = .next t) :
    t.Inv := by
  unfold State.issueDecoded at ht
  split at ht
  · exact exec_keeps_inv h ht
  · cases ht

theorem fetchAndIssue_keeps_inv {s t : State} (h : s.Inv) (ht : s.fetchAndIssue = .next t) : t.Inv := by
  refine withParcel_keeps_inv h (fun p u hu hnext => ?_) ht
  split at hnext
  · exact issueDecoded_keeps_inv hu hnext
  · refine withParcel_keeps_inv hu (fun q v hv hnext => ?_) hnext
    split at hnext
    · exact issueDecoded_keeps_inv hv hnext
    · exact withParcel_keeps_inv hv (fun _ w hw => issueDecoded_keeps_inv hw) hnext

theorem issue_keeps_inv {s t : State} (h : s.Inv) (ht : s.issue = .next t) : t.Inv := by
  unfold State.issue at ht
  split at ht
  · exact exec_keeps_inv h ht
  · exact fetchAndIssue_keeps_inv h ht

theorem boundary_keeps_inv {s t : State} (h : s.Inv) (ht : s.boundary = .next t) : t.Inv := by
  simp only [State.boundary] at ht
  split at ht
  · exact exchange_keeps_inv h.atBoundary ht
  · exact issue_keeps_inv h.atBoundary ht

theorem act_keeps_inv {s t : State} (h : s.Inv) (ht : s.act = .next t) : t.Inv := by
  unfold State.act at ht
  split at ht
  · cases ht; exact h
  · split at ht
    · exact exchange_keeps_inv h ht
    · exact boundary_keeps_inv h ht

/-- Settles O5: the events of the boundary keep the invariant, and what the CPU that moves does keeps it. -/
theorem stepKeepsInvariant : Obligations.StepKeepsInvariant := by
  intro s t h ht
  obtain ⟨u, hu, hact⟩ := orStop_next.mp ht
  exact act_keeps_inv (h.deliver hu) hact

/-- Settles O4: each part is a closed fact of the reset state. -/
theorem resetSatisfiesInvariant : Obligations.ResetSatisfiesInvariant where
  mem := by decide
  params := by decide
  vl := by decide
  cln := by decide
  pns := by decide
  pn := by decide
  count := by decide
  channels := by decide
  words := by decide
  stamps := by decide
  intervals := by decide

end Sys2Proof.Machine
end

section
/-! The status word (10_state.md R49, 41 R217) as bits at places, and the shared registers (41 R235). -/

namespace Sys2Proof.Machine

open Sys2Proof

/-! ## Bits at places -/

/-- The word whose bits at the listed places are the listed ones, 0 elsewhere. -/
def placedBits (l : List (Nat × Bool)) : Word :=
  match l with
  | [] => 0
  | (pos, b) :: rest => srBit pos b ||| placedBits rest

theorem srBit_true (pos : Nat) : srBit pos true = BitVec.twoPow 64 pos := by
  apply BitVec.eq_of_toNat_eq
  rw [srBit, if_pos rfl, BitVec.natCast_eq_ofNat, BitVec.toNat_ofNat, BitVec.toNat_twoPow, Nat.one_shiftLeft]

theorem getLsbD_srBit (pos : Nat) (b : Bool) {i : Nat} (hi : i < 64) :
    (srBit pos b).getLsbD i = (b && decide (i = pos)) := by
  cases b with
  | false => simp [srBit]
  | true =>
    rw [srBit_true, BitVec.getLsbD_twoPow, ← Bool.decide_and, Bool.true_and]
    exact decide_eq_decide.mpr (by omega)

/-- A place that is not listed holds 0. -/
theorem getLsbD_placedBits_of_not_mem {l : List (Nat × Bool)} {i : Nat} (h : i ∉ l.map Prod.fst) :
    (placedBits l).getLsbD i = false := by
  by_cases hi : i < 64
  · induction l with
    | nil => simp [placedBits]
    | cons x rest ih =>
      obtain ⟨hx, hrest⟩ := List.ne_and_not_mem_of_not_mem_cons h
      rw [placedBits, BitVec.getLsbD_or, getLsbD_srBit _ _ hi, ih hrest, decide_eq_false hx, Bool.and_false,
        Bool.false_or]
  · exact BitVec.getLsbD_of_ge _ _ (Nat.le_of_not_lt hi)

/-- A place listed once holds its bit. -/
theorem getLsbD_placedBits {l : List (Nat × Bool)} (hl : (l.map Prod.fst).Nodup) {pos : Nat} {b : Bool}
    (h : (pos, b) ∈ l) (hpos : pos < 64) : (placedBits l).getLsbD pos = b := by
  induction l with
  | nil => cases h
  | cons x rest ih =>
    obtain ⟨hx, hrest⟩ := List.nodup_cons.mp hl
    rw [placedBits, BitVec.getLsbD_or, getLsbD_srBit _ _ hpos]
    rcases List.mem_cons.mp h with rfl | h
    · rw [getLsbD_placedBits_of_not_mem hx, decide_eq_true rfl, Bool.and_true, Bool.or_false]
    · have hne : pos ≠ x.1 := fun e => hx (e ▸ List.mem_map_of_mem h)
      rw [ih hrest h, decide_eq_false hne, Bool.and_false, Bool.false_or]

theorem srBit_shiftLeft (k pos : Nat) (b : Bool) : srBit k b <<< pos = srBit (pos + k) b := by
  cases b with
  | false => simp [srBit]
  | true =>
    rw [srBit_true, srBit_true, BitVec.twoPow_eq, BitVec.twoPow_eq, ← BitVec.shiftLeft_add, Nat.add_comm]

/-- The 3-bit processor number at a place is its bits at places side by side. -/
theorem shiftLeft_pn (x : BitVec 3) (pos : Nat) : (x.setWidth 64 : Word) <<< pos =
    srBit pos (x.getLsbD 0) ||| srBit (pos + 1) (x.getLsbD 1) ||| srBit (pos + 2) (x.getLsbD 2) := by
  have hbits : (x.setWidth 64 : Word) = srBit 0 (x.getLsbD 0) ||| srBit 1 (x.getLsbD 1) ||| srBit 2 (x.getLsbD 2) := by
    revert x
    decide
  rw [hbits, BitVec.shiftLeft_or_distrib, BitVec.shiftLeft_or_distrib, srBit_shiftLeft, srBit_shiftLeft,
    srBit_shiftLeft, Nat.add_zero]

/-- The 4-bit cluster number at a place. -/
theorem shiftLeft_cln (x : BitVec 4) (pos : Nat) : (x.setWidth 64 : Word) <<< pos =
    srBit pos (x.getLsbD 0) ||| srBit (pos + 1) (x.getLsbD 1) ||| srBit (pos + 2) (x.getLsbD 2)
      ||| srBit (pos + 3) (x.getLsbD 3) := by
  have hbits : (x.setWidth 64 : Word) = srBit 0 (x.getLsbD 0) ||| srBit 1 (x.getLsbD 1) ||| srBit 2 (x.getLsbD 2)
      ||| srBit 3 (x.getLsbD 3) := by
    revert x
    decide
  rw [hbits, BitVec.shiftLeft_or_distrib, BitVec.shiftLeft_or_distrib, BitVec.shiftLeft_or_distrib, srBit_shiftLeft,
    srBit_shiftLeft, srBit_shiftLeft, srBit_shiftLeft, Nat.add_zero]

/-! ## The status word -/

/-- The bits of the status word with their places, in the order of `SRLayout.bits`. -/
def Cpu.statusBits (c : Cpu) (l : SRLayout) : List (Nat × Bool) :=
  [(l.clustered, c.cln != 0), (l.ume, c.umeSeen), (l.cme, c.cmeSeen), (l.ps, c.m.ps), (l.fps, c.m.fps),
    (l.ifp, c.m.ifp), (l.ior, c.m.ior), (l.bdm, c.m.bdm), (l.pn, c.pn.getLsbD 0), (l.pn + 1, c.pn.getLsbD 1),
    (l.pn + 2, c.pn.getLsbD 2), (l.cln, c.cln.getLsbD 0), (l.cln + 1, c.cln.getLsbD 1), (l.cln + 2, c.cln.getLsbD 2),
    (l.cln + 3, c.cln.getLsbD 3)]

theorem statusWord_eq_placedBits (c : Cpu) (l : SRLayout) : c.statusWord l = placedBits (c.statusBits l) := by
  rw [Cpu.statusWord, shiftLeft_pn, shiftLeft_cln]
  simp only [Cpu.statusBits, placedBits, BitVec.or_assoc]
  rw [show (0 : Word) = 0#64 from rfl, BitVec.or_zero]

section
variable {l : SRLayout} (h : l.wf = true) (c : Cpu)
include h

/-- Each bit of the status word stands at its place. -/
theorem getLsbD_statusWord {pos : Nat} {b : Bool} (hb : (pos, b) ∈ c.statusBits l) :
    (c.statusWord l).getLsbD pos = b := by
  simp only [SRLayout.wf, Bool.and_eq_true, decide_eq_true_eq, List.all_eq_true] at h
  obtain ⟨hnodup, hlt⟩ := h
  rw [statusWord_eq_placedBits]
  exact getLsbD_placedBits (l := c.statusBits l) hnodup hb (hlt pos (List.mem_map_of_mem (f := Prod.fst) hb))

/-- A field of `w` bits, each of which stands at its place, is read whole. -/
theorem extractLsb'_statusWord {w : Nat} (x : BitVec w) (pos : Nat)
    (hb : ∀ k, k < w → (pos + k, x.getLsbD k) ∈ c.statusBits l) : (c.statusWord l).extractLsb' pos w = x := by
  apply BitVec.eq_of_getLsbD_eq
  intro k hk
  rw [BitVec.getLsbD_extractLsb', decide_eq_true hk, Bool.true_and, getLsbD_statusWord h c (hb k hk)]

end

/-- Settles O17: the status word is its bits at the places of the layout, and each place is used once. -/
theorem statusWordAndClock : Obligations.StatusWordAndClock := by
  intro s i
  refine ⟨givesS_done s i _ 1 _ rfl, fun h => givesS_done s i _ 1 _ ?_⟩
  have bit : ∀ {pos b}, (pos, b) ∈ s.cpu.statusBits s.params.sr → _ := getLsbD_statusWord h s.cpu
  refine ⟨?_, bit ?_, bit ?_, bit ?_, bit ?_, bit ?_, bit ?_, bit ?_, extractLsb'_statusWord h _ _ _ fun k hk => ?_,
    extractLsb'_statusWord h _ _ _ fun k hk => ?_, fun b hb => ?_⟩
  · rw [bit (b := s.cpu.cln != 0) (by simp [Cpu.statusBits])]
    simp [bne, Bool.beq_eq_decide_eq]
  iterate 7 simp [Cpu.statusBits]
  · interval_cases k <;> simp [Cpu.statusBits]
  · interval_cases k <;> simp [Cpu.statusBits]
  · rw [statusWord_eq_placedBits]
    exact getLsbD_placedBits_of_not_mem hb

/-! ## Shared registers (41 R235) -/

/-- Semaphore n is bit 31 - n of its cluster. -/
theorem smIsSet_eq_getLsbD (c : Cluster) {n : BitVec 6} (hn : n.toNat < 32) :
    c.smIsSet n = c.sm.getLsbD (31 - n.toNat) := by
  have hbit : ∀ k : BitVec 6, k.toNat < 32 → smBit k = BitVec.twoPow 32 (31 - k.toNat) := by decide
  have hne : ∀ k : BitVec 6, k.toNat < 32 → (BitVec.twoPow 32 (31 - k.toNat) != 0) = true := by decide
  rw [Cluster.smIsSet, hbit n hn, BitVec.and_twoPow]
  cases c.sm.getLsbD (31 - n.toNat) with
  | false => rfl
  | true => exact hne n hn

section
variable (s : State)

theorem shared_of_no_cluster (h : s.cpu.cln = 0) (k : Cluster → Out) : s.shared k = .refused .noCluster := if_pos h

theorem shared_of_cluster (h : s.cpu.cln ≠ 0) (k : Cluster → Out) : s.shared k = k s.cluster := if_neg h

/-- An instruction that writes the CPU's cluster changes that cluster and P. -/
theorem writeCluster_advance (d : Cluster) :
    let t := (s.writeCluster d).advance 1
    regGet t.clusters s.cpu.cln = d ∧ (∀ x, x ≠ s.cpu.cln → regGet t.clusters x = regGet s.clusters x) ∧
      Moved s t 1 ∧ t = { s with cpu := { s.cpu with p := t.cpu.p }, clusters := t.clusters } ∧ SameBytes s t :=
  ⟨regGet_regPut_same _ _ _, fun _ hx => regGet_regPut_ne _ _ _ _ hx, moved_advance _ _ _ rfl, rfl, fun _ => rfl⟩

theorem exec_aFromSb (i j : BitVec 3) : exec (.aFromSb i j) s = execAFromSb i j s := rfl
theorem exec_sbFromA (i j : BitVec 3) : exec (.sbFromA i j) s = execSbFromA i j s := rfl
theorem exec_sFromSm (i : BitVec 3) : exec (.sFromSm i) s = execSFromSm i s := rfl
theorem exec_sFromSt (i j : BitVec 3) : exec (.sFromSt i j) s = execSFromSt i j s := rfl
theorem exec_smFromS (i : BitVec 3) : exec (.smFromS i) s = execSmFromS i s := rfl
theorem exec_stFromS (i j : BitVec 3) : exec (.stFromS i j) s = execStFromS i j s := rfl
theorem exec_smTs (jk : BitVec 6) : exec (.smTs jk) s = execSmTs jk s := rfl
theorem exec_smClr (jk : BitVec 6) : exec (.smClr jk) s = execSmClr jk s := rfl
theorem exec_smSet (jk : BitVec 6) : exec (.smSet jk) s = execSmSet jk s := rfl

end

/-- Settles O18: `State.shared` refuses without a cluster, and otherwise goes on with the CPU's own. -/
theorem sharedRegisters : Obligations.SharedRegisters := by
  intro s i j jk
  refine ⟨fun h => ?_, fun h => ?_⟩
  · have hno := shared_of_no_cluster s h
    simp only [List.forall_mem_cons, List.not_mem_nil, false_imp_iff, implies_true, and_true]
    rw [exec_aFromSb, exec_sbFromA, exec_sFromSm, exec_sFromSt, exec_smFromS, exec_stFromS, exec_smTs, exec_smClr,
      exec_smSet]
    exact ⟨hno _, hno _, hno _, hno _, hno _, hno _, hno _, hno _, hno _⟩
  · have hgo := shared_of_cluster s h
    refine ⟨?_, ?_, ?_, ?_, ?_, ?_⟩
    · rw [exec_aFromSb, execAFromSb, hgo]
      exact givesA_done s i _ 1 _ (amask_toNat _ _)
    · rw [exec_sFromSt, execSFromSt, hgo]
      exact givesS_done s i _ 1 _ rfl
    · rw [exec_sFromSm, execSFromSm, hgo]
      refine givesS_done s i _ 1 _ fun n hn => ?_
      rw [smIsSet_eq_getLsbD _ hn, BitVec.getLsbD_append, BitVec.getLsbD_append, if_neg (by omega), if_pos hn]
      exact ⟨congrArg _ (by omega), by simp⟩
    · rw [exec_sbFromA, execSbFromA, hgo]
      obtain ⟨hd, hx, hp, ht, hb⟩ :=
        writeCluster_advance s { s.cluster with sb := regPut s.cluster.sb j (s.readA i) }
      refine ⟨_, _, rfl, hd.symm, ?_, fun r hr => regGet_regPut_ne _ _ _ _ hr, rfl, hx, hp, ht, hb⟩
      rw [regGet_regPut_same, s.readA_toNat]
    · rw [exec_stFromS, execStFromS, hgo]
      obtain ⟨hd, hx, hp, ht, hb⟩ :=
        writeCluster_advance s { s.cluster with st := regPut s.cluster.st j (s.readS i) }
      exact ⟨_, _, rfl, hd.symm, regGet_regPut_same _ _ _, fun r hr => regGet_regPut_ne _ _ _ _ hr, rfl,
        hx, hp, ht, hb⟩
    · rw [exec_smFromS, execSmFromS, hgo]
      obtain ⟨hd, hx, hp, ht, hb⟩ := writeCluster_advance s { s.cluster with sm := (s.readS i).extractLsb' 32 32 }
      refine ⟨_, _, rfl, hd.symm, fun n hn => ?_, rfl, hx, hp, ht, hb⟩
      rw [smIsSet_eq_getLsbD _ hn, BitVec.getLsbD_extractLsb', decide_eq_true (by omega), Bool.true_and]
      exact congrArg _ (by omega)

end Sys2Proof.Machine
end

section
/-! The agents outside the instruction streams: routing of channel interrupts (60_exceptions.md R520), register parity
errors (R519, R524), clock periods (R550, R552) and the channels' words (R560). -/

namespace Sys2Proof.Machine

open Sys2Proof

/-! ## Routing of channel interrupts (R520) -/

/-- The CPUs that may take the interrupt: able, and served by a requesting channel. -/
def State.ioAble (s : State) : List Cpu := s.cpus.filter fun c => c.takesIo && s.servedBy c

/-- Those of them that R520 prefers. -/
def State.ioPreferred (s : State) : List Cpu :=
  let selected := s.ioAble.filter fun c => c.m.sei
  if selected.isEmpty then s.ioAble else selected

theorem ioCandidates_eq (s : State) : s.ioCandidates = s.ioPreferred.map Cpu.pn := rfl

theorem mem_ioAble {s : State} {c : Cpu} :
    c ∈ s.ioAble ↔ c ∈ s.cpus ∧ c.started = true ∧ c.deadstart = false ∧ c.m.mm = false ∧
      ∃ ch ∈ s.channels, ch.intFlag = true ∧ c.pn ∈ ch.serves := by
  simp [State.ioAble, Cpu.takesIo, Cpu.running, userGate, State.servedBy, and_assoc]

/-- A preferred CPU is able, and has SEI if some able one has. -/
theorem of_mem_ioPreferred {s : State} {c : Cpu} (h : c ∈ s.ioPreferred) :
    c ∈ s.ioAble ∧ ((∃ d ∈ s.ioAble, d.m.sei = true) → c.m.sei = true) := by
  simp only [State.ioPreferred] at h
  split at h
  · rename_i hnone
    refine ⟨h, fun ⟨d, hd, hsei⟩ => ?_⟩
    have hmem : d ∈ s.ioAble.filter fun c => c.m.sei := List.mem_filter.mpr ⟨hd, hsei⟩
    rw [List.isEmpty_iff.mp hnone] at hmem
    cases hmem
  · obtain ⟨hable, hsei⟩ := List.mem_filter.mp h
    exact ⟨hable, fun _ => hsei⟩

theorem ioPreferred_eq_nil {s : State} : s.ioPreferred = [] ↔ s.ioAble = [] := by
  simp only [State.ioPreferred]
  split
  · exact Iff.rfl
  · rename_i hsome
    refine ⟨fun h => absurd (List.isEmpty_iff.mpr h) hsome, fun h => by rw [h]; rfl⟩

/-- Routing does nothing without a candidate, and otherwise raises F.IOI of the CPUs with one candidate's number. -/
theorem routeIo_cases (s : State) :
    (s.ioCandidates = [] ∧ s.routeIo = s) ∨
      ∃ p ∈ s.ioCandidates, ∃ n, s.routeIo = (s.updateCpu p Cpu.raiseIoi).drawn n := by
  unfold State.routeIo
  split
  · exact .inl ⟨‹_›, rfl⟩
  · rename_i p h
    exact .inr ⟨p, by rw [h]; exact List.mem_singleton.mpr rfl, 0, rfl⟩
  · rename_i p q rest h
    refine .inr ⟨_, ?_, 1, rfl⟩
    have hlt : (s.drawAt 0).toNat % (rest.length + 2) < (p :: q :: rest).length := Nat.mod_lt _ (by omega)
    rw [h, List.getD_eq_getElem _ _ hlt]
    exact List.getElem_mem hlt

/-- Settles O52: the candidates are the preferred of the able CPUs, and one of them is raised. -/
theorem channelInterruptIsRouted : Obligations.ChannelInterruptIsRouted := by
  intro s _
  have hsome : (∃ c ∈ s.cpus, c.started = true ∧ c.deadstart = false ∧ c.m.mm = false ∧
      ∃ ch ∈ s.channels, ch.intFlag = true ∧ c.pn ∈ ch.serves) ↔ s.ioCandidates ≠ [] := by
    rw [ioCandidates_eq, Ne, List.map_eq_nil_iff, ioPreferred_eq_nil, List.eq_nil_iff_forall_not_mem]
    simp only [mem_ioAble, not_forall, not_not]
  rcases routeIo_cases s with ⟨hnil, hroute⟩ | ⟨p, hp, n, hroute⟩
  · exact ⟨fun h => absurd hnil (hsome.mp h), fun _ => by rw [hroute]⟩
  · refine ⟨fun _ => ⟨p, ?_, by rw [hroute]; rfl⟩, fun h => absurd (hsome.mpr (List.ne_nil_of_mem hp)) h⟩
    rw [ioCandidates_eq] at hp
    obtain ⟨c, hc, rfl⟩ := List.mem_map.mp hp
    obtain ⟨hable, hsei⟩ := of_mem_ioPreferred hc
    obtain ⟨hmem, habl⟩ := mem_ioAble.mp hable
    exact ⟨c, hmem, rfl, habl, fun ⟨d, hd, hdable, hdsei⟩ => hsei ⟨d, mem_ioAble.mpr ⟨hd, hdable⟩, hdsei⟩⟩

/-! ## Register parity errors (R519, R524) -/

section
variable (c : Cpu) (reg : ParityReg) (info : MemErrInfo) (d : Word)

theorem parityError_a (i : BitVec 3) (h : reg ≠ .a i) : regGet (c.parityError reg info d).a i = regGet c.a i := by
  cases reg with
  | a k => exact regGet_regPut_ne _ _ _ _ fun e => h (e ▸ rfl)
  | _ => rfl

theorem parityError_b (i : BitVec 6) (h : reg ≠ .b i) : regGet (c.parityError reg info d).b i = regGet c.b i := by
  cases reg with
  | b k => exact regGet_regPut_ne _ _ _ _ fun e => h (e ▸ rfl)
  | _ => rfl

theorem parityError_s (i : BitVec 3) (h : reg ≠ .s i) : regGet (c.parityError reg info d).s i = regGet c.s i := by
  cases reg with
  | s k => exact regGet_regPut_ne _ _ _ _ fun e => h (e ▸ rfl)
  | _ => rfl

theorem parityError_t (i : BitVec 6) (h : reg ≠ .t i) : regGet (c.parityError reg info d).t i = regGet c.t i := by
  cases reg with
  | t k => exact regGet_regPut_ne _ _ _ _ fun e => h (e ▸ rfl)
  | _ => rfl

theorem parityError_v (i : BitVec 3) (e : BitVec 6) (h : reg ≠ .v i e) :
    regGet (regGet (c.parityError reg info d).v i) e = regGet (regGet c.v i) e := by
  cases reg with
  | v k x =>
    show regGet (regGet (regPut c.v k (regPut (regGet c.v k) x d)) i) e = regGet (regGet c.v i) e
    by_cases hi : i = k
    · subst hi
      have he : e ≠ x := fun he => h (he ▸ rfl)
      rw [regGet_regPut_same, regGet_regPut_ne _ _ _ _ he]
    · rw [regGet_regPut_ne _ _ _ _ hi]
  | _ => rfl

/-- A parity error is one uncorrectable error of the CPU. -/
theorem parityError_errorsSeen :
    ErrorsSeen c (c.parityError reg info d) [{ site := .operand 0, kind := .uncorrectable, info := info }] := by
  have hnote := errorsSeen_noteErrors c [{ site := .operand 0, kind := .uncorrectable, info := info }]
  cases reg <;> exact hnote

/-- What a parity error may change. -/
theorem parityError_frame :
    let e := c.parityError reg info d
    e = { c with a := e.a, b := e.b, s := e.s, t := e.t, v := e.v, umeSeen := e.umeSeen, f := e.f
                 memErr := e.memErr } := by
  have hcme : (c.cmeSeen || MemErrKind.uncorrectable == .correctable) = c.cmeSeen := Bool.or_false _
  cases reg <;> simp only [Cpu.parityError, Cpu.noteMemError, hcme]

end

/-- Settles O55: CPU by CPU, `Cpu.parityError` of those with the number, and nothing of the others. -/
theorem registerParityErrors : Obligations.RegisterParityErrors := by
  intro s p reg info
  refine ⟨_, rfl, ?_, rfl⟩
  have hcpus : ((s.updateCpu p fun c => c.parityError reg info (s.drawAt 0)).drawn 1).cpus =
      s.cpus.map fun c => if c.pn = p then c.parityError reg info (s.drawAt 0) else c := rfl
  rw [hcpus, List.forall₂_map_right_iff]
  refine List.forall₂_same.mpr fun c _ => ⟨fun h => if_neg h, fun h => ?_⟩
  rw [if_pos h]
  exact ⟨parityError_errorsSeen c reg info _, parityError_a c reg info _, parityError_b c reg info _,
    parityError_s c reg info _, parityError_t c reg info _, parityError_v c reg info _, parityError_frame c reg info _⟩

/-! ## Clock periods (R550, R552) -/

/-- What a clock period does to a programmable clock that is not at 0. -/
def Ticked (c d : Cpu) : Prop :=
  d = { c with pc := d.pc, pciRequest := d.pciRequest } ∧
    (c.pc.toNat = 1 → d.pc = c.ii ∧ d.pciRequest = true) ∧
    (c.pc.toNat ≠ 1 → d.pc.toNat = c.pc.toNat - 1 ∧ d.pciRequest = c.pciRequest)

theorem Cpu.tick_of_zero {c : Cpu} (h : c.pc = 0) : c.tick = .error (.refuse .clockAtZero) := if_pos h

theorem Cpu.tick_of_ne {c : Cpu} (h : c.pc ≠ 0) : ∃ d, c.tick = .ok d ∧ Ticked c d := by
  unfold Cpu.tick
  rw [if_neg h]
  split
  · rename_i h1
    exact ⟨_, rfl, rfl, fun _ => ⟨rfl, rfl⟩, fun hne => absurd (congrArg BitVec.toNat h1) hne⟩
  · rename_i h1
    exact ⟨_, rfl, rfl, fun he => absurd (BitVec.eq_of_toNat_eq he) h1, fun _ => ⟨by bv_omega, rfl⟩⟩

theorem tickAll_of_ne {l : List Cpu} (h : ∀ c ∈ l, c.pc ≠ 0) : ∃ ds, tickAll l = .ok ds ∧ List.Forall₂ Ticked l ds := by
  induction l with
  | nil => exact ⟨[], rfl, .nil⟩
  | cons c rest ih =>
    obtain ⟨hc, hrest⟩ := List.forall_mem_cons.mp h
    obtain ⟨d, hd, htick⟩ := Cpu.tick_of_ne hc
    obtain ⟨ds, hds, hticks⟩ := ih hrest
    exact ⟨d :: ds, by rw [tickAll, hd, hds], .cons htick hticks⟩

theorem tickAll_of_zero {l : List Cpu} (h : ∃ c ∈ l, c.pc = 0) : tickAll l = .error (.refuse .clockAtZero) := by
  induction l with
  | nil => simp at h
  | cons c rest ih =>
    by_cases hc : c.pc = 0
    · rw [tickAll, Cpu.tick_of_zero hc]
    · obtain ⟨d, hd, -⟩ := Cpu.tick_of_ne hc
      rw [List.exists_mem_cons_iff] at h
      rw [tickAll, hd, ih (h.resolve_left hc)]

/-- A clock period of the machine is one of all its CPUs' clocks and of RTC. -/
theorem tick_eq (s : State) : s.tick =
    (tickAll s.cpus).map fun l => { s with cpu := l.headD s.cpu, others := l.tail, rtc := s.rtc + 1 } := by
  rw [State.cpus, State.tick, tickAll]
  cases s.cpu.tick with
  | error e => rfl
  | ok d => cases tickAll s.others <;> rfl

/-! ## A channel's words (R560) -/

theorem finish_without_error (c : Channel) : c.finish false = { c with active := false, intFlag := true } := by
  rw [Channel.finish, Bool.or_false]

section
variable {s : State} {n : Addr} {w : Word} {c : Channel} (hc : s.channel n = some c) (ha : c.active = true)
include hc ha

theorem chanStep_at_limit (he : c.ca = c.cl) :
    s.chanStep n w = .ok (s.setChannel n fun d => { d with active := false, intFlag := true }) := by
  simp [State.chanStep, hc, ha, he, finish_without_error]

theorem chanStep_moves (he : c.ca ≠ c.cl) (hm : c.ca.toNat < s.params.memWords) :
    s.chanStep n w =
      let t := s.setChannel n fun d => { d with ca := d.ca + 1 }
      .ok (if c.dir = .input then t.memWrite c.ca.toNat w else t) := by
  simp only [State.chanStep, hc, ha, he, Nat.not_le.mpr hm, if_false, Bool.not_true, Bool.false_eq_true]
  cases c.dir <;> rfl

end

/-- Settles O60: the clocks one by one, and the two ways a channel's pass goes on. -/
theorem ticksAndChannelWords : Obligations.TicksAndChannelWords := by
  refine ⟨fun s => ⟨fun h => ?_, fun h => ?_⟩, fun s n w c hc ha => ⟨fun he => ?_, fun he hm => ?_⟩⟩
  · obtain ⟨ds, hds, hticks⟩ := tickAll_of_ne h
    obtain ⟨d, rest, rfl⟩ : ∃ d rest, ds = d :: rest := by cases hticks; exact ⟨_, _, rfl⟩
    refine ⟨{ s with cpu := d, others := rest, rtc := s.rtc + 1 }, ?_, BitVec.toNat_add _ _, hticks, rfl⟩
    rw [tick_eq, hds]
    rfl
  · rw [tick_eq, tickAll_of_zero h]
    rfl
  · exact chanStep_at_limit hc ha he
  · rw [chanStep_moves hc ha he hm]
    cases c.dir with
    | output => exact ⟨_, rfl, rfl, fun _ _ => rfl, nofun, rfl⟩
    | input =>
      refine ⟨_, rfl, rfl, nofun, fun _ => ⟨readWord_writeWord_same _ _ _, fun x hx => ?_⟩, rfl⟩
      exact readByte_writeWord_out _ _ _ _ (by omega)

end Sys2Proof.Machine
end

section
/-! Scalar references (20_memory.md R86, R94; 42_memory_transfer.md R257 to R266): what the four accesses do when the
word can be reached, when the address exceeds the limit, and when they stop; what the errors of reads leave alone. -/

namespace Sys2Proof.Machine

open Sys2Proof

/-! ## Values and errors -/

/-- An A or B register keeps the low AW bits of a word (decision D8). -/
theorem amask_word_toNat (eam : Bool) (w : Word) :
    (amask eam (w.setWidth 32)).toNat = w.toNat % 2 ^ addrWidth eam := by
  rw [amask_toNat, BitVec.toNat_setWidth, mod_two_pow_mod_addrWidth]

/-- An address register as the word it is stored as: its low AW bits above zeros (decision D8). -/
theorem amask_setWidth_64 (eam : Bool) (v : Addr) :
    (amask eam v).setWidth 64 = BitVec.ofNat 64 (v.toNat % 2 ^ addrWidth eam) := by
  rw [← amask_toNat, BitVec.ofNat_toNat]

/-- What reads change: the error state of their CPU, and the count of draws if one of them is spoiled. -/
theorem afterReads_cases (s : State) (l : List ReadError) (n : Nat) :
    ∃ cme ume f e,
      ErrorsSeen s.cpu { s.cpu with cmeSeen := cme, umeSeen := ume, f := f, memErr := e } l ∧
      s.afterReads l n = { s with
        cpu := { s.cpu with cmeSeen := cme, umeSeen := ume, f := f, memErr := e }
        draws := s.draws + if spoiled l then n else 0 } := by
  have hseen := errorsSeen_noteErrors s.cpu l
  unfold State.afterReads
  rw [noteErrors_eq] at hseen ⊢
  exact ⟨_, _, _, _, hseen, rfl⟩

theorem draws_of_not_spoiled {l : List ReadError} (h : spoiled l = false) (d n : Nat) :
    d + (if spoiled l then n else 0) = d := by rw [h]; rfl

/-- F after an operand range error (60_exceptions.md R517). -/
theorem reportsOperandRange_raiseOre {s t : State} (h : t.cpu.f = s.cpu.raiseOre.f) : ReportsOperandRange s t := by
  refine ⟨?_, ?_⟩ <;> simp [h, Cpu.raiseOre, immGate]

/-! ## Relocation and the limit (R86) -/

section
variable {s : State} {ea : Addr}

theorem locate_at_limit (h : s.wordOf ea = s.cpu.dla.toNat) : s.locate ea = .error (.refuse .limitEquality) := by
  unfold State.wordOf at h
  simp only [State.locate, h, lt_irrefl, if_false, if_true]

theorem locate_beyond (hl : s.wordOf ea < s.cpu.dla.toNat) (hm : s.params.memWords ≤ s.wordOf ea) :
    s.locate ea = .error (.fault .beyondMemory) := by
  unfold State.wordOf at hl hm
  simp only [State.locate]
  rw [if_neg (by omega), if_neg (by omega), if_pos hm]

theorem dataRead_aborted (h : s.cpu.dla.toNat < s.wordOf ea) :
    s.dataRead ea = .ok (s.drawAt 0, (s.drawn 1).withCpu s.cpu.raiseOre) := by
  rw [State.dataRead, locate_none.mpr h]

theorem dataWrite_aborted (h : s.cpu.dla.toNat < s.wordOf ea) (v : Word) :
    s.dataWrite ea v = .ok (s.withCpu s.cpu.raiseOre) := by
  rw [State.dataWrite, locate_none.mpr h]

end

/-! ## The four accesses -/

section
variable {s : State} {i : BitVec 3} {ea : Addr} {n : Nat}

/-- What a completed scalar read of the word at `ea` into Ai or Si does. -/
def ReadsWord (o : Out) (s : State) (i : BitVec 3) (n : Nat) (ea : Addr) (isA : Bool) : Prop :=
  let l := s.errorsAt (.operand 0)
  ∃ t, o = .next t ∧ Moved s t n ∧ SameBytes s t ∧ ErrorsSeen s.cpu t.cpu l ∧
    t = { s with cpu := { s.cpu with
      a := t.cpu.a, s := t.cpu.s, p := t.cpu.p, refs := t.cpu.refs, cmeSeen := t.cpu.cmeSeen
      umeSeen := t.cpu.umeSeen, f := t.cpu.f, memErr := t.cpu.memErr }, draws := t.draws } ∧
    (∀ r, (isA = false ∨ r ≠ i) → regGet t.cpu.a r = regGet s.cpu.a r) ∧
    (∀ r, (isA = true ∨ r ≠ i) → regGet t.cpu.s r = regGet s.cpu.s r) ∧
    (spoiled l = false → t.draws = s.draws ∧
      (isA = true → (regGet t.cpu.a i).toNat =
        (Memory.readWord s.mem (s.wordOf ea)).toNat % 2 ^ addrWidth s.cpu.m.eam) ∧
      (isA = false → regGet t.cpu.s i = Memory.readWord s.mem (s.wordOf ea)))

theorem loadA_reads (h : Reaches s false false (s.wordOf ea)) : ReadsWord (loadA i ea n s) s i n ea true := by
  rw [loadA, dataRead_reaches h]
  generalize addRef _ _ = refs
  obtain ⟨cme, ume, f, e, hseen, hreads⟩ :=
    afterReads_cases (s.withCpu { s.cpu with refs := refs }) (s.errorsAt (.operand 0)) 1
  rw [hreads]
  refine ⟨_, rfl, moved_advance _ _ _ rfl, fun _ => rfl, hseen, rfl,
    fun r hr => regGet_regPut_ne _ _ _ _ (hr.resolve_left nofun), fun _ _ => rfl, fun hs => ⟨?_, fun _ => ?_, nofun⟩⟩
  · exact draws_of_not_spoiled hs _ _
  · rw [delivered_clean _ _ hs]
    simp [amask_word_toNat]

theorem loadS_reads (h : Reaches s false false (s.wordOf ea)) : ReadsWord (loadS i ea n s) s i n ea false := by
  rw [loadS, dataRead_reaches h]
  generalize addRef _ _ = refs
  obtain ⟨cme, ume, f, e, hseen, hreads⟩ :=
    afterReads_cases (s.withCpu { s.cpu with refs := refs }) (s.errorsAt (.operand 0)) 1
  rw [hreads]
  refine ⟨_, rfl, moved_advance _ _ _ rfl, fun _ => rfl, hseen, rfl, fun _ _ => rfl,
    fun r hr => regGet_regPut_ne _ _ _ _ (hr.resolve_left nofun), fun hs => ⟨?_, nofun, fun _ => ?_⟩⟩
  · exact draws_of_not_spoiled hs _ _
  · rw [delivered_clean _ _ hs]
    exact regGet_regPut_same _ _ _

/-- What a completed scalar write of the value `v` to the word at `ea` does. -/
def WritesWord (o : Out) (s : State) (n : Nat) (ea : Addr) (v : Nat) : Prop :=
  ∃ t, o = .next t ∧ Moved s t n ∧ (Memory.readWord t.mem (s.wordOf ea)).toNat = v ∧
    SameBytesOutside s t (fun w => w = s.wordOf ea) ∧
    t = { s with cpu := { s.cpu with p := t.cpu.p, refs := t.cpu.refs }
                 mem := t.mem, writeLog := t.writeLog, writeClock := t.writeClock }

theorem dataWrite_writes (h : Reaches s false true (s.wordOf ea)) (v : Word) :
    WritesWord (orStop (s.dataWrite ea v) fun t => t.done n) s n ea v.toNat := by
  rw [dataWrite_reaches h]
  generalize addRef _ _ = refs
  refine ⟨_, rfl, moved_advance _ _ _ rfl, congrArg BitVec.toNat (readWord_writeWord_same _ _ _), fun x hx => ?_, rfl⟩
  exact readByte_writeWord_out _ _ _ _ (by omega)

theorem storeA_writes (h : Reaches s false true (s.wordOf ea)) :
    WritesWord (storeA i ea n s) s n ea ((regGet s.cpu.a i).toNat % 2 ^ addrWidth s.cpu.m.eam) := by
  rw [← s.readA_toNat, ← BitVec.toNat_setWidth_of_le (show 32 ≤ 64 by decide) (b := s.readA i)]
  exact dataWrite_writes h _

theorem storeS_writes (h : Reaches s false true (s.wordOf ea)) :
    WritesWord (storeS i ea n s) s n ea (regGet s.cpu.s i).toNat := dataWrite_writes h _

/-- What an aborted scalar reference does; the destination of a read is left open. -/
def AbortsScalar (o : Out) (s : State) (i : BitVec 3) (n : Nat) (isA isS : Bool) : Prop :=
  ∃ t, o = .next t ∧ Moved s t n ∧ SameBytes s t ∧ ReportsOperandRange s t ∧
    t = { s with cpu := { s.cpu with a := t.cpu.a, s := t.cpu.s, p := t.cpu.p, f := t.cpu.f }, draws := t.draws } ∧
    (∀ r, (isA = false ∨ r ≠ i) → regGet t.cpu.a r = regGet s.cpu.a r) ∧
    (∀ r, (isS = false ∨ r ≠ i) → regGet t.cpu.s r = regGet s.cpu.s r)

section
variable (h : s.cpu.dla.toNat < s.wordOf ea)
include h

theorem loadA_aborts : AbortsScalar (loadA i ea n s) s i n true false := by
  rw [loadA, dataRead_aborted h]
  exact ⟨_, rfl, moved_advance _ _ _ rfl, fun _ => rfl, reportsOperandRange_raiseOre rfl, rfl,
    fun r hr => regGet_regPut_ne _ _ _ _ (hr.resolve_left nofun), fun _ _ => rfl⟩

theorem loadS_aborts : AbortsScalar (loadS i ea n s) s i n false true := by
  rw [loadS, dataRead_aborted h]
  exact ⟨_, rfl, moved_advance _ _ _ rfl, fun _ => rfl, reportsOperandRange_raiseOre rfl, rfl, fun _ _ => rfl,
    fun r hr => regGet_regPut_ne _ _ _ _ (hr.resolve_left nofun)⟩

theorem dataWrite_aborts (v : Word) :
    AbortsScalar (orStop (s.dataWrite ea v) fun t => t.done n) s i n false false := by
  rw [dataWrite_aborted h]
  exact ⟨_, rfl, moved_advance _ _ _ rfl, fun _ => rfl, reportsOperandRange_raiseOre rfl, rfl, fun _ _ => rfl,
    fun _ _ => rfl⟩

end

end

/-! ## Stops -/

/-- A scalar access whose address cannot be located stops with the reason. -/
theorem scalar_stops {s : State} {i : BitVec 3} {ea : Addr} {n : Nat} {e : Stop} (h : s.locate ea = .error e) :
    loadA i ea n s = e.out ∧ loadS i ea n s = e.out ∧ storeA i ea n s = e.out ∧ storeS i ea n s = e.out := by
  simp only [loadA, loadS, storeA, storeS, State.dataRead, State.dataWrite, h, orStop, and_self]

section
variable {h i : BitVec 3} {jkm : BitVec 22} {nm : BitVec 32} {s : State} {e : Stop}

theorem scalarY_stops (he : s.locate (s.scalarAddr h nm) = .error e) {x : Instr}
    (hx : x ∈ [.ldAY h i nm, .ldSY h i nm, .stAY h i nm, .stSY h i nm]) : exec x s = e.out := by
  obtain ⟨hla, hls, hsa, hss⟩ := scalar_stops (i := i) (n := 3) he
  simp only [List.mem_cons, List.not_mem_nil, or_false] at hx
  rcases hx with rfl | rfl | rfl | rfl
  · exact hla
  · exact hls
  · exact hsa
  · exact hss

/-- The X-mode forms go on with their displacement (R262). -/
theorem withDisp22_some {d : Addr} (hd : disp22 jkm = some d) (k : Addr → Out) : withDisp22 jkm k = k d := by
  rw [withDisp22, hd]

theorem exec_ldAX {d : Addr} (hd : disp22 jkm = some d) :
    exec (.ldAX h i jkm) s = loadA i (s.scalarAddr h d) 2 s := withDisp22_some hd _

theorem exec_ldSX {d : Addr} (hd : disp22 jkm = some d) :
    exec (.ldSX h i jkm) s = loadS i (s.scalarAddr h d) 2 s := withDisp22_some hd _

theorem exec_stAX {d : Addr} (hd : disp22 jkm = some d) :
    exec (.stAX h i jkm) s = storeA i (s.scalarAddr h d) 2 s := withDisp22_some hd _

theorem exec_stSX {d : Addr} (hd : disp22 jkm = some d) :
    exec (.stSX h i jkm) s = storeS i (s.scalarAddr h d) 2 s := withDisp22_some hd _

theorem scalarX_stops (hd : jkm.toNat < 2 ^ 21)
    (he : s.locate (s.scalarAddr h (BitVec.ofNat 32 jkm.toNat)) = .error e) {x : Instr}
    (hx : x ∈ [.ldAX h i jkm, .ldSX h i jkm, .stAX h i jkm, .stSX h i jkm]) : exec x s = e.out := by
  obtain ⟨hla, hls, hsa, hss⟩ := scalar_stops (i := i) (n := 2) he
  have hd := disp22_of_lt hd
  simp only [List.mem_cons, List.not_mem_nil, or_false] at hx
  rcases hx with rfl | rfl | rfl | rfl
  · exact (exec_ldAX hd).trans hla
  · exact (exec_ldSX hd).trans hls
  · exact (exec_stAX hd).trans hsa
  · exact (exec_stSX hd).trans hss

/-- An X-mode displacement with bit 21 set is refused (decision D12). -/
theorem displacement_stops (hd : 2 ^ 21 ≤ jkm.toNat) {x : Instr}
    (hx : x ∈ [.ldAX h i jkm, .ldSX h i jkm, .stAX h i jkm, .stSX h i jkm]) :
    exec x s = .refused .displacementSign := by
  have hstop : ∀ k, withDisp22 jkm k = .refused .displacementSign := fun k => by rw [withDisp22, disp22_of_le hd]
  simp only [List.mem_cons, List.not_mem_nil, or_false] at hx
  rcases hx with rfl | rfl | rfl | rfl
  all_goals exact hstop _

/-- A block transfer whose count exceeds the file is refused (decision D20). -/
theorem blockCount_stops {jk : BitVec 6} (hn : 64 < jk.toNat + (s.readA i).toNat) {x : Instr}
    (hx : x ∈ [.ldBBlk i jk, .stBBlk i jk, .ldTBlk i jk, .stTBlk i jk]) : exec x s = .refused .blockCount := by
  have hfit : blockFits jk (s.readA i) = false := decide_eq_false fun hle => Nat.not_le.mpr hn hle.2
  have hstop : ∀ k, s.withBlock i jk k = .refused .blockCount := fun k => by
    rw [State.withBlock, hfit]
    rfl
  simp only [List.mem_cons, List.not_mem_nil, or_false] at hx
  rcases hx with rfl | rfl | rfl | rfl
  · exact hstop fun _ => _
  · exact hstop fun _ => _
  · exact hstop fun _ => _
  · exact hstop fun _ => _

end

/-! ## The statements -/

/-- Settles O22: the reads of a word that can be reached, in the two modes. -/
theorem scalarLoads : Obligations.ScalarLoads := by
  intro s h i jkm nm
  refine ⟨fun d hd hr => ?_, fun hr => ⟨loadA_reads hr, loadS_reads hr⟩⟩
  show ReadsWord (exec (.ldAX h i jkm) s) s i 2 _ true ∧ ReadsWord (exec (.ldSX h i jkm) s) s i 2 _ false
  rw [exec_ldAX hd, exec_ldSX hd]
  exact ⟨loadA_reads hr, loadS_reads hr⟩

/-- Settles O23: the writes of a word that can be reached, in the two modes. -/
theorem scalarStores : Obligations.ScalarStores := by
  intro s h i jkm nm
  refine ⟨fun d hd hr => ?_, fun hr => ⟨storeA_writes hr, storeS_writes hr⟩⟩
  show WritesWord (exec (.stAX h i jkm) s) s 2 _ _ ∧ WritesWord (exec (.stSX h i jkm) s) s 2 _ _
  rw [exec_stAX hd, exec_stSX hd]
  exact ⟨storeA_writes hr, storeS_writes hr⟩

/-- Settles O24: the four accesses above the limit, in the two modes. -/
theorem abortedScalarReferences : Obligations.AbortedScalarReferences := by
  intro s h i jkm nm d
  refine ⟨fun hd hl => ?_, fun hl => ⟨loadA_aborts hl, loadS_aborts hl, dataWrite_aborts hl _, dataWrite_aborts hl _⟩⟩
  show AbortsScalar (exec (.ldAX h i jkm) s) s i 2 true false ∧ AbortsScalar (exec (.ldSX h i jkm) s) s i 2 false true ∧
    AbortsScalar (exec (.stAX h i jkm) s) s i 2 false false ∧ AbortsScalar (exec (.stSX h i jkm) s) s i 2 false false
  rw [exec_ldAX hd, exec_ldSX hd, exec_stAX hd, exec_stSX hd]
  exact ⟨loadA_aborts hl, loadS_aborts hl, dataWrite_aborts hl _, dataWrite_aborts hl _⟩

/-- Settles O25: an address that cannot be located, a displacement and a count that are refused. -/
theorem memoryInstructionStops : Obligations.MemoryInstructionStops := by
  intro s h i jkm nm jk x
  refine ⟨fun hx => ⟨fun ha => ?_, fun hl hm => ?_⟩, fun hx => ⟨fun hd => ?_, fun hd ha => ?_, fun hd hl hm => ?_⟩,
    fun hx hn => blockCount_stops hn hx⟩
  · exact scalarY_stops (locate_at_limit ha) hx
  · exact scalarY_stops (locate_beyond hl hm) hx
  · exact displacement_stops hd hx
  · exact scalarX_stops hd (locate_at_limit ha) hx
  · exact scalarX_stops hd (locate_beyond hl hm) hx

end Sys2Proof.Machine
end

section
/-! Block and vector reads (42_memory_transfer.md R270 to R280): what a reference delivers element by element, when
every element is made (R93, R519, R524) and when some are aborted (R94, decision D46), and what a file of 64 then holds. -/

namespace Sys2Proof.Machine

open Sys2Proof

/-! ## Lengths -/

@[simp] theorem State.blockAddrs_length (s : State) (n : Nat) : (s.blockAddrs n).length = n := by
  simp [State.blockAddrs]

@[simp] theorem State.strideAddrs_length (s : State) (d : Addr) : (s.strideAddrs d).length = s.cpu.vl.toNat := by
  simp [State.strideAddrs]

@[simp] theorem State.indexAddrs_length (s : State) (k : BitVec 3) : (s.indexAddrs k).length = s.cpu.vl.toNat := by
  simp [State.indexAddrs]

/-! ## A file after a block read -/

/-- The elements of a block read at `eas`, each by its number and address; none leaves its destination alone. -/
def Delivers (l : List (Option Word)) (eas : List Addr) (f : Nat → Addr → Option Word) : Prop :=
  ∀ e : Nat, l[e]? = (eas[e]?).map (f e)

section
variable {α : Type} {v : Vector α (2 ^ 6)} {jk : Nat} {conv : Word → α} {l : List (Option Word)} {eas : List Addr}
  {f : Nat → Addr → Option Word} (h : Delivers l eas f) (r : BitVec 6)
include h

/-- The register of an element holds what the element delivers, or what it held. -/
theorem blockLoaded_dest (hlo : jk ≤ r.toNat) (hhi : r.toNat < jk + eas.length) :
    regGet (blockLoaded v jk conv l) r =
      (f (r.toNat - jk) (eas.getD (r.toNat - jk) 0)).elim (regGet v r) conv := by
  have he : r.toNat - jk < eas.length := by omega
  rw [blockLoaded_get, if_neg (Nat.not_lt.mpr hlo), h, List.getElem?_eq_getElem he, List.getD_eq_getElem _ _ he]
  rw [Option.map_some]
  cases f (r.toNat - jk) eas[r.toNat - jk] <;> rfl

/-- A register of no element is kept. -/
theorem blockLoaded_other (hr : ¬ (jk ≤ r.toNat ∧ r.toNat < jk + eas.length)) :
    regGet (blockLoaded v jk conv l) r = regGet v r := by
  rw [blockLoaded_get]
  by_cases hlo : r.toNat < jk
  · rw [if_pos hlo]
  · rw [if_neg hlo, h, List.getElem?_eq_none (by omega)]
    rfl

end

/-! ## References all of which are made -/

/-- What element `e` of a block read delivers when it is made. -/
def State.elemMade (s : State) (e : Nat) (ea : Addr) : Option Word :=
  some (delivered (s.errorsAt (.operand e)) (s.drawAt (64 + e)) (Memory.readWord s.mem (s.wordOf ea)))

theorem State.elemMade_clean {s : State} {e : Nat} (ea : Addr) (h : spoiled (s.errorsAt (.operand e)) = false) :
    s.elemMade e ea = some (Memory.readWord s.mem (s.wordOf ea)) := by
  rw [State.elemMade, delivered_clean _ _ h]

theorem blockRead_made {s : State} {eas : List Addr} (h : ReachesAll s false eas) :
    ∃ l refs cme ume f e d,
      Delivers l eas s.elemMade ∧
      ErrorsSeen s.cpu { s.cpu with refs := refs, cmeSeen := cme, umeSeen := ume, f := f, memErr := e }
        (s.operandErrors eas.length) ∧
      (spoiled (s.operandErrors eas.length) = false → d = s.draws) ∧
      s.blockRead eas = .ok (l, { s with
        cpu := { s.cpu with refs := refs, cmeSeen := cme, umeSeen := ume, f := f, memErr := e }, draws := d }) := by
  obtain ⟨refs, l, hread, hl⟩ := blockRead_reaches h
  obtain ⟨cme, ume, f, e, hseen, hafter⟩ :=
    afterReads_cases (s.withCpu { s.cpu with refs := refs }) (s.operandErrors eas.length) 128
  refine ⟨l, refs, cme, ume, f, e, _, hl, hseen, fun hs => draws_of_not_spoiled hs s.draws 128, ?_⟩
  rw [hread, hafter]
  rfl

/-! ## References some of which are aborted (decision D46) -/

/-- What element `e` of a block read delivers when some element is aborted and no error accompanies the reads. -/
def State.elemPartly (s : State) (e : Nat) (ea : Addr) : Option Word :=
  if s.cpu.dla.toNat < s.wordOf ea then some (s.drawAt e)
  else if (s.drawAt e).getLsbD 0 then none
  else some (Memory.readWord s.mem (s.wordOf ea))

/-- An element within the limit delivers nothing or its word. -/
theorem State.elemPartly_in_range {s : State} {ea : Addr} (h : s.wordOf ea < s.cpu.dla.toNat) (e : Nat) :
    s.elemPartly e ea = none ∨ s.elemPartly e ea = some (Memory.readWord s.mem (s.wordOf ea)) := by
  rw [State.elemPartly, if_neg (Nat.not_lt.mpr h.le)]
  split
  · exact .inl rfl
  · exact .inr rfl

theorem blockRead_partly {s : State} {eas : List Addr} (h : ReachesSome s false eas)
    (hc : ∀ n, s.errorsAt (.operand n) = []) :
    ∃ l refs, Delivers l eas s.elemPartly ∧
      s.blockRead eas = .ok (l, { s with
        cpu := { s.cpu with refs := refs, f := s.cpu.raiseOre.f }, draws := s.draws + eas.length }) := by
  obtain ⟨refs, hread⟩ := blockRead_some h hc
  refine ⟨_, refs, fun e => ?_, hread⟩
  rw [blockElems_get, located, List.getElem?_map, Option.map_map, Nat.zero_add]
  refine congrArg (fun g => Option.map g eas[e]?) (funext fun ea => ?_)
  show State.blockElem _ true e (if s.cpu.dla.toNat < s.wordOf ea then none else some (s.wordOf ea)) = s.elemPartly e ea
  rw [State.elemPartly]
  split
  · rfl
  · simp only [State.blockElem, errorsAt_withCpu, hc, delivered_clean _ _ (show spoiled [] = false from rfl)]
    rfl

/-! ## Blocks into B and T (R270, R271, R273) -/

theorem withBlock_fits {s : State} {i : BitVec 3} {jk : BitVec 6} (h : jk.toNat + (s.readA i).toNat ≤ 64)
    (k : Nat → Out) : s.withBlock i jk k = k (s.readA i).toNat :=
  if_pos (decide_eq_true ⟨by omega, h⟩)

/-- What a block read of `n` words does when all can be reached: `q` says what the file holds, `c` which file it is. -/
def ReadsBlock (o : Out) (s : State) (n : Nat) (q : State → BitVec 6 → Prop) (c : State → Cpu) : Prop :=
  ∃ t, o = .next t ∧ Moved s t 1 ∧ SameBytes s t ∧ ErrorsSeen s.cpu t.cpu (s.operandErrors n) ∧
    (spoiled (s.operandErrors n) = false → t.draws = s.draws) ∧ (∀ r, q t r) ∧
    t = { s with cpu := { c t with
      p := t.cpu.p, refs := t.cpu.refs, cmeSeen := t.cpu.cmeSeen, umeSeen := t.cpu.umeSeen, f := t.cpu.f
      memErr := t.cpu.memErr }, draws := t.draws }

/-- The word at the element of a block read that fills register `r`. -/
def State.blockWord (s : State) (jk : BitVec 6) (n : Nat) (r : BitVec 6) : Word :=
  Memory.readWord s.mem (s.wordOf ((s.blockAddrs n).getD (r.toNat - jk.toNat) 0))

/-- A file after a block read all of whose words can be reached. -/
theorem blockLoaded_made {α : Type} {v : Vector α (2 ^ 6)} {conv : Word → α} {s : State} {jk : BitVec 6} {n : Nat}
    {l : List (Option Word)} (h : Delivers l (s.blockAddrs n) s.elemMade) (r : BitVec 6) :
    (jk.toNat ≤ r.toNat ∧ r.toNat < jk.toNat + n → spoiled (s.errorsAt (.operand (r.toNat - jk.toNat))) = false →
      regGet (blockLoaded v jk.toNat conv l) r = conv (s.blockWord jk n r)) ∧
    (¬ (jk.toNat ≤ r.toNat ∧ r.toNat < jk.toNat + n) → regGet (blockLoaded v jk.toNat conv l) r = regGet v r) := by
  have hlen := s.blockAddrs_length n
  refine ⟨fun hr hc => ?_, fun hr => blockLoaded_other h r (hlen.symm ▸ hr)⟩
  rw [blockLoaded_dest h r hr.1 (hlen.symm ▸ hr.2), State.elemMade_clean _ hc]
  rfl

section
variable {s : State} {i : BitVec 3} {jk : BitVec 6} (hfit : jk.toNat + (s.readA i).toNat ≤ 64)
  (h : ReachesAll s false (s.blockAddrs (s.readA i).toNat))
include hfit h

theorem ldBBlk_reads :
    ReadsBlock (exec (.ldBBlk i jk) s) s (s.readA i).toNat
      (fun t r =>
        (jk.toNat ≤ r.toNat ∧ r.toNat < jk.toNat + (s.readA i).toNat →
          spoiled (s.errorsAt (.operand (r.toNat - jk.toNat))) = false →
          (regGet t.cpu.b r).toNat = (s.blockWord jk (s.readA i).toNat r).toNat % 2 ^ addrWidth s.cpu.m.eam) ∧
        (¬ (jk.toNat ≤ r.toNat ∧ r.toNat < jk.toNat + (s.readA i).toNat) → regGet t.cpu.b r = regGet s.cpu.b r))
      fun t => { s.cpu with b := t.cpu.b } := by
  show ReadsBlock (execLdBBlk i jk s) _ _ _ _
  obtain ⟨l, refs, cme, ume, f, e, d, hl, hseen, hdraws, hread⟩ := blockRead_made h
  rw [State.blockAddrs_length] at hseen hdraws
  rw [execLdBBlk, withBlock_fits hfit, hread]
  dsimp only [orStop]
  have hfile := blockLoaded_made (v := s.cpu.b) (jk := jk) (conv := fun w => amask s.cpu.m.eam (w.setWidth 32)) hl
  generalize blockLoaded s.cpu.b jk.toNat _ l = file at hfile ⊢
  refine ⟨_, rfl, moved_advance _ _ _ rfl, fun _ => rfl, hseen, hdraws, fun r => ?_, rfl⟩
  obtain ⟨hdest, hother⟩ := hfile r
  exact ⟨fun hr hc => (congrArg BitVec.toNat (hdest hr hc)).trans (amask_word_toNat _ _), hother⟩

theorem ldTBlk_reads :
    ReadsBlock (exec (.ldTBlk i jk) s) s (s.readA i).toNat
      (fun t r =>
        (jk.toNat ≤ r.toNat ∧ r.toNat < jk.toNat + (s.readA i).toNat →
          spoiled (s.errorsAt (.operand (r.toNat - jk.toNat))) = false →
          regGet t.cpu.t r = s.blockWord jk (s.readA i).toNat r) ∧
        (¬ (jk.toNat ≤ r.toNat ∧ r.toNat < jk.toNat + (s.readA i).toNat) → regGet t.cpu.t r = regGet s.cpu.t r))
      fun t => { s.cpu with t := t.cpu.t } := by
  show ReadsBlock (execLdTBlk i jk s) _ _ _ _
  obtain ⟨l, refs, cme, ume, f, e, d, hl, hseen, hdraws, hread⟩ := blockRead_made h
  rw [State.blockAddrs_length] at hseen hdraws
  rw [execLdTBlk, withBlock_fits hfit, hread]
  dsimp only [orStop]
  have hfile := blockLoaded_made (v := s.cpu.t) (jk := jk) (conv := id) hl
  generalize blockLoaded s.cpu.t jk.toNat _ l = file at hfile ⊢
  exact ⟨_, rfl, moved_advance _ _ _ rfl, fun _ => rfl, hseen, hdraws, hfile, rfl⟩

end

/-- Settles O26: every element is made, and the file holds what each delivers. -/
theorem blockLoads : Obligations.BlockLoads :=
  fun _ _ _ hfit h => ⟨ldBBlk_reads hfit h, ldTBlk_reads hfit h⟩

/-! ## Vectors (R278 to R280) -/

/-- The elements of Vi after a block read of VL words: those below VL from what is delivered, the others kept. -/
theorem vectorIs_loaded {s t : State} {i : BitVec 3} {l : List (Option Word)} {eas : List Addr}
    {f : Nat → Addr → Option Word} {q : BitVec 6 → Word → Prop} (hl : Delivers l eas f)
    (hlen : eas.length = s.cpu.vl.toNat) (ht : t.cpu.v = regPut s.cpu.v i (blockLoaded (s.readV i) 0 id l))
    (h : ∀ e : BitVec 6, q e ((f e.toNat (eas.getD e.toNat 0)).elim (s.velem i e) id)) : VectorIs s t i q := by
  refine ⟨fun e he => ?_, fun e he => ?_, fun r hr => ?_⟩
  · rw [velem_writeV _ _ _ _ _ ht, blockLoaded_dest hl e (Nat.zero_le _) (by omega)]
    exact h e
  · rw [velem_writeV _ _ _ _ _ ht, blockLoaded_other hl e (by omega)]
    rfl
  · rw [ht, regGet_regPut_ne _ _ _ _ hr]

/-- What a vector read of the words at `eas` does when all can be reached. -/
def FillsVector (o : Out) (s : State) (i : BitVec 3) (eas : List Addr) : Prop :=
  let l := s.operandErrors s.cpu.vl.toNat
  ∃ t, o = .next t ∧ Moved s t 1 ∧ SameBytes s t ∧ ErrorsSeen s.cpu t.cpu l ∧
    VectorIs s t i (fun e w => spoiled (s.errorsAt (.operand e.toNat)) = false →
      w = Memory.readWord s.mem (s.wordOf (eas.getD e.toNat 0))) ∧
    (spoiled l = false → t.draws = s.draws) ∧
    t = { s with cpu := { s.cpu with
      v := t.cpu.v, vused := true, p := t.cpu.p, refs := t.cpu.refs, cmeSeen := t.cpu.cmeSeen
      umeSeen := t.cpu.umeSeen, f := t.cpu.f, memErr := t.cpu.memErr }, draws := t.draws }

theorem loadV_fills {s : State} {i : BitVec 3} {eas : List Addr} (hv : s.cpu.vl ≠ 0)
    (hlen : eas.length = s.cpu.vl.toNat) (h : ReachesAll s false eas) : FillsVector (loadV i eas s) s i eas := by
  obtain ⟨l, refs, cme, ume, f, e, d, hl, hseen, hdraws, hread⟩ := blockRead_made h
  rw [hlen] at hseen hdraws
  rw [loadV, if_neg hv, hread]
  dsimp only [orStop]
  refine ⟨_, rfl, moved_advance _ _ _ rfl, fun _ => rfl, hseen, vectorIs_loaded hl hlen rfl fun e hc => ?_,
    hdraws, rfl⟩
  rw [State.elemMade_clean _ hc]
  rfl

theorem exec_ldVGather {s : State} {i k : BitVec 3} (h : i ≠ k) :
    exec (.ldVGather i k) s = loadV i (s.indexAddrs k) s := if_neg h

/-- Settles O28: the strided read, the gather, and the gather that is refused. -/
theorem vectorLoads : Obligations.VectorLoads := by
  intro s i k hv _
  refine ⟨fun h => loadV_fills hv (s.strideAddrs_length _) h, fun hik h => ?_, fun hik => if_pos hik⟩
  show FillsVector (exec (.ldVGather i k) s) s i _
  rw [exec_ldVGather hik]
  exact loadV_fills hv (s.indexAddrs_length _) h

/-! ## Reads partly above the limit (R94, decision D46) -/

/-- What a vector read of the words at `eas` does when some element is aborted. -/
def FillsVectorPartly (o : Out) (s : State) (i : BitVec 3) (eas : List Addr) : Prop :=
  ∃ t, o = .next t ∧ Moved s t 1 ∧ SameBytes s t ∧ ReportsOperandRange s t ∧
    VectorIs s t i (fun e w => s.wordOf (eas.getD e.toNat 0) < s.cpu.dla.toNat →
      w = s.velem i e ∨ w = Memory.readWord s.mem (s.wordOf (eas.getD e.toNat 0))) ∧
    t = { s with cpu := { s.cpu with v := t.cpu.v, vused := true, p := t.cpu.p, refs := t.cpu.refs, f := t.cpu.f }
                 draws := t.draws }

theorem loadV_fillsPartly {s : State} {i : BitVec 3} {eas : List Addr} (hc : ∀ n, s.errorsAt (.operand n) = [])
    (hv : s.cpu.vl ≠ 0) (hlen : eas.length = s.cpu.vl.toNat) (h : ReachesSome s false eas) :
    FillsVectorPartly (loadV i eas s) s i eas := by
  obtain ⟨l, refs, hl, hread⟩ := blockRead_partly h hc
  rw [loadV, if_neg hv, hread]
  dsimp only [orStop]
  refine ⟨_, rfl, moved_advance _ _ _ rfl, fun _ => rfl, reportsOperandRange_raiseOre rfl,
    vectorIs_loaded hl hlen rfl fun e hin => ?_, rfl⟩
  rcases State.elemPartly_in_range hin e.toNat with hx | hx
  · exact .inl (by rw [hx]; rfl)
  · exact .inr (by rw [hx]; rfl)

/-- A file after a block read some of whose elements are aborted. -/
theorem blockLoaded_partly {α : Type} {v : Vector α (2 ^ 6)} {conv : Word → α} {s : State} {jk : BitVec 6} {n : Nat}
    {l : List (Option Word)} (h : Delivers l (s.blockAddrs n) s.elemPartly) :
    (∀ r : BitVec 6, ¬ (jk.toNat ≤ r.toNat ∧ r.toNat < jk.toNat + n) →
      regGet (blockLoaded v jk.toNat conv l) r = regGet v r) ∧
    ∀ r : BitVec 6, jk.toNat ≤ r.toNat ∧ r.toNat < jk.toNat + n →
      s.wordOf ((s.blockAddrs n).getD (r.toNat - jk.toNat) 0) < s.cpu.dla.toNat →
      regGet (blockLoaded v jk.toNat conv l) r = regGet v r ∨
        regGet (blockLoaded v jk.toNat conv l) r = conv (s.blockWord jk n r) := by
  have hlen := s.blockAddrs_length n
  refine ⟨fun r hr => blockLoaded_other h r (hlen.symm ▸ hr), fun r hr hin => ?_⟩
  rw [blockLoaded_dest h r hr.1 (hlen.symm ▸ hr.2)]
  rcases State.elemPartly_in_range hin (r.toNat - jk.toNat) with hx | hx
  · exact .inl (by rw [hx]; rfl)
  · exact .inr (by rw [hx]; rfl)

/-- Settles O31: each destination holds what its element delivers, nothing or its word if it lies within the limit. -/
theorem partlyAbortedLoads : Obligations.PartlyAbortedLoads := by
  intro s i k jk hc
  refine ⟨fun hfit h => ⟨?_, ?_⟩, fun hv _ => ⟨fun h => ?_, fun hik h => ?_⟩⟩
  · show ∃ t, execLdBBlk i jk s = .next t ∧ _
    obtain ⟨l, refs, hl, hread⟩ := blockRead_partly h hc
    rw [execLdBBlk, withBlock_fits hfit, hread]
    dsimp only [orStop]
    obtain ⟨hother, hdest⟩ :=
      blockLoaded_partly (v := s.cpu.b) (jk := jk) (conv := fun w => amask s.cpu.m.eam (w.setWidth 32)) hl
    generalize blockLoaded s.cpu.b jk.toNat _ l = file at hother hdest ⊢
    refine ⟨_, rfl, moved_advance _ _ _ rfl, fun _ => rfl, reportsOperandRange_raiseOre rfl, hother,
      fun r hr hin => ?_, rfl⟩
    exact (hdest r hr hin).imp_right fun hx => (congrArg BitVec.toNat hx).trans (amask_word_toNat _ _)
  · show ∃ t, execLdTBlk i jk s = .next t ∧ _
    obtain ⟨l, refs, hl, hread⟩ := blockRead_partly h hc
    rw [execLdTBlk, withBlock_fits hfit, hread]
    dsimp only [orStop]
    obtain ⟨hother, hdest⟩ := blockLoaded_partly (v := s.cpu.t) (jk := jk) (conv := id) hl
    generalize blockLoaded s.cpu.t jk.toNat _ l = file at hother hdest ⊢
    exact ⟨_, rfl, moved_advance _ _ _ rfl, fun _ => rfl, reportsOperandRange_raiseOre rfl, hother, hdest, rfl⟩
  · exact loadV_fillsPartly hc hv (s.strideAddrs_length _) h
  · show FillsVectorPartly (exec (.ldVGather i k) s) s i _
    rw [exec_ldVGather hik]
    exact loadV_fillsPartly hc hv (s.indexAddrs_length _) h

end Sys2Proof.Machine
end

section
/-! Block and vector writes (42_memory_transfer.md R270 to R282): which words a reference writes, in fixed order (R96),
as a scatter (R282), and when some elements are aborted (R94, decision D46). -/

namespace Sys2Proof.Machine

open Sys2Proof

/-! ## Values stored -/

section
variable (s : State) (jk : BitVec 6) (n : Nat)

/-- Registers `jk` on, by number. -/
theorem blockRegs_eq {α : Type} (v : Vector α (2 ^ 6)) :
    blockRegs v jk n = (List.range n).map fun e => regGet v (BitVec.ofNat 6 (jk.toNat + e)) := by
  refine List.map_congr_left fun e _ => ?_
  rw [BitVec.ofNat_add, BitVec.ofNat_toNat, BitVec.setWidth_eq]

/-- B registers as they are stored: their low AW bits above zeros (decision D8). -/
theorem blockRegs_b : (blockRegs s.cpu.b jk n).map (fun v => (amask s.cpu.m.eam v).setWidth 64) =
    (List.range n).map fun e =>
      BitVec.ofNat 64 ((regGet s.cpu.b (BitVec.ofNat 6 (jk.toNat + e))).toNat % 2 ^ addrWidth s.cpu.m.eam) := by
  rw [blockRegs_eq, List.map_map]
  exact List.map_congr_left fun e _ => amask_setWidth_64 _ _

/-- The elements of Vj from the first on. -/
theorem blockRegs_v (j : BitVec 3) :
    blockRegs (s.readV j) 0 n = (List.range n).map fun e => s.velem j (BitVec.ofNat 6 e) := by
  rw [blockRegs_eq]
  refine List.map_congr_left fun e _ => ?_
  show regGet (s.readV j) (BitVec.ofNat 6 (0 + e)) = _
  rw [Nat.zero_add]
  rfl

end

section
variable {s : State} {i : BitVec 3} {jk : BitVec 6} (h : jk.toNat + (s.readA i).toNat ≤ 64)
include h

theorem exec_stBBlk : exec (.stBBlk i jk) s =
    orStop (s.blockWrite false (s.blockAddrs (s.readA i).toNat) ((List.range (s.readA i).toNat).map fun e =>
      BitVec.ofNat 64 ((regGet s.cpu.b (BitVec.ofNat 6 (jk.toNat + e))).toNat % 2 ^ addrWidth s.cpu.m.eam)))
      fun t => t.done 1 := by
  show execStBBlk i jk s = _
  rw [execStBBlk, withBlock_fits h, blockRegs_b]

theorem exec_stTBlk : exec (.stTBlk i jk) s =
    orStop (s.blockWrite false (s.blockAddrs (s.readA i).toNat) ((List.range (s.readA i).toNat).map fun e =>
      regGet s.cpu.t (BitVec.ofNat 6 (jk.toNat + e)))) fun t => t.done 1 := by
  show execStTBlk i jk s = _
  rw [execStTBlk, withBlock_fits h, blockRegs_eq]

end

theorem storeV_eq {s : State} {j : BitVec 3} (hv : s.cpu.vl ≠ 0) (scatter : Bool) (eas : List Addr) :
    storeV scatter j eas s =
      orStop (s.blockWrite scatter eas ((List.range s.cpu.vl.toNat).map fun e => s.velem j (BitVec.ofNat 6 e)))
        fun t => t.markVector.done 1 := by
  rw [storeV, if_neg hv, blockRegs_v]

/-! ## Writes in fixed order (R96) -/

/-- Settles O27: the two block writes are block references in fixed order. -/
theorem blockStores : Obligations.BlockStores := by
  intro s i jk n hfit h
  refine ⟨?_, ?_⟩
  · rw [exec_stBBlk hfit]
    exact storesInOrder s _ _ false h id fun _ => rfl
  · rw [exec_stTBlk hfit]
    exact storesInOrder s _ _ false h id fun _ => rfl

/-! ## The words a list of writes names -/

/-- Each write of the list is that of an element whose word lies below the limit. -/
def WritesElements (s : State) (eas : List Addr) (vals : List Word) (puts : List (Option (Nat × Word))) : Prop :=
  ∀ p, some p ∈ puts → p.1 < s.cpu.dla.toNat ∧
    ∃ e : Nat, ∃ ea, eas[e]? = some ea ∧ s.wordOf ea = p.1 ∧ vals[e]? = some p.2

/-- What the writes of a list leave in memory, and that they change nothing besides but the record of writes. -/
theorem memWrites_cases (s : State) (puts : List (Option (Nat × Word))) :
    ∃ mem log clock,
      s.memWrites puts = { s with mem := mem, writeLog := log, writeClock := clock } ∧
      (∀ x, (∀ p, some p ∈ puts → p.1 ≠ x / 8) → Memory.readByte mem x = Memory.readByte s.mem x) ∧
      ∀ a, (∃ v, some (a, v) ∈ puts ∧ Memory.readWord mem a = v) ∨
        ((∀ p, some p ∈ puts → p.1 ≠ a) ∧ Memory.readWord mem a = Memory.readWord s.mem a) :=
  ⟨_, _, _, memWrites_frame s puts, memWrites_byte s puts, memWrites_readWord_last s puts⟩

/-- The writes of a block reference are those of elements that are made. -/
theorem blockPuts_writesElements {s t : State} {eas : List Addr} {vals : List Word}
    (h : ∀ ea ∈ eas, s.cpu.dla.toNat < s.wordOf ea ∨ Reaches s true true (s.wordOf ea)) (out sc : Bool) :
    WritesElements s eas vals (t.blockPuts out sc [] 0 ((located s eas).zip vals)) := by
  intro p hp
  obtain ⟨e, he⟩ := blockPuts_mem _ _ _ _ _ _ p hp
  obtain ⟨hloc, hval⟩ := List.getElem?_zip_eq_some.mp he
  rw [located, List.getElem?_map, Option.map_eq_some_iff] at hloc
  obtain ⟨ea, hea, hword⟩ := hloc
  split at hword
  · cases hword
  · rename_i hle
    have hword : s.wordOf ea = p.1 := Option.some.inj hword
    have hreach := (h ea (List.mem_of_getElem? hea)).resolve_left hle
    exact ⟨hword ▸ hreach.1, e, ea, hea, hword, hval⟩

/-- In a scatter none of whose elements is aborted, the first element that names a word not seen before writes it. -/
theorem blockPuts_scatter_mem {t : State} {a : Nat} {l : List (Option Nat × Word)} {seen : List Nat} (n : Nat)
    (hseen : a ∉ seen) (h : some a ∈ l.map Prod.fst) : ∃ v, some (a, v) ∈ t.blockPuts false true seen n l := by
  induction l generalizing seen n with
  | nil => cases h
  | cons x rest ih =>
    obtain ⟨x, v⟩ := x
    by_cases hx : x = some a
    · subst hx
      refine ⟨v, List.mem_cons.mpr (.inl ?_)⟩
      simp [State.blockPut, hseen]
    · obtain ⟨w, hw⟩ := ih (seen := x.toList ++ seen) (n + 1) (by simp [hseen, hx])
        ((List.mem_cons.mp h).resolve_left (Ne.symm hx))
      exact ⟨w, List.mem_cons_of_mem _ hw⟩

/-! ## Block references as lists of writes -/

/-- A block write each of whose elements is made or aborted. -/
theorem blockWrite_located {s : State} {eas : List Addr} (sc : Bool) (vals : List Word)
    (h : ∀ ea ∈ eas, s.cpu.dla.toNat < s.wordOf ea ∨ Reaches s true true (s.wordOf ea)) :
    ∃ refs puts d,
      let t := s.withCpu { s.cpu with refs := refs }
      let out := someOut (located s eas)
      puts = t.blockPuts out sc [] 0 ((located s eas).zip vals) ∧
      s.blockWrite sc eas vals = .ok (((t.memWrites puts).afterBlock out eas.length).drawn d) := by
  refine ⟨(refsOf true true (located s eas)).foldr addRef s.cpu.refs, _,
    if !someOut (located s eas) && sc && hasDuplicate (located s eas) then eas.length else 0, rfl, ?_⟩
  have hlen : (located s eas).length = eas.length := List.length_map _
  simp only [State.blockWrite, locateAll_located h, claim_located h, hlen]
  split <;> rfl

/-- What a block write some of whose elements are aborted leaves in memory (decision D46). -/
def WrittenPartly (s : State) (eas : List Addr) (vals : List Word) (mem : Memory) : Prop :=
  (∀ x, ¬ (Names s eas (x / 8) ∧ x / 8 < s.cpu.dla.toNat) → Memory.readByte mem x = Memory.readByte s.mem x) ∧
  ∀ w, Names s eas w → w < s.cpu.dla.toNat → Memory.readWord mem w = Memory.readWord s.mem w ∨
    ∃ e : Nat, ∃ ea, eas[e]? = some ea ∧ s.wordOf ea = w ∧ vals[e]? = some (Memory.readWord mem w)

theorem blockWrite_partly {s : State} {eas : List Addr} (sc : Bool) (vals : List Word) (h : ReachesSome s true eas) :
    ∃ refs mem log clock d, WrittenPartly s eas vals mem ∧
      s.blockWrite sc eas vals = .ok { s with
        cpu := { s.cpu with refs := refs, f := s.cpu.raiseOre.f }
        mem := mem, writeLog := log, writeClock := clock, draws := d } := by
  obtain ⟨refs, puts, d, hputs, hwrite⟩ := blockWrite_located sc vals h.1
  have hels : WritesElements s eas vals puts := hputs ▸ blockPuts_writesElements h.1 _ _
  obtain ⟨mem, log, clock, hmem, hbytes, hwords⟩ := memWrites_cases (s.withCpu { s.cpu with refs := refs }) puts
  rw [hmem, (someOut_iff s eas).mpr h.2] at hwrite
  refine ⟨refs, mem, log, clock, _, ⟨fun x hx => hbytes x fun p hp hpx => ?_, fun w _ _ => ?_⟩, hwrite⟩
  · obtain ⟨hlt, e, ea, hea, hword, -⟩ := hels p hp
    exact hx ⟨⟨ea, List.mem_of_getElem? hea, hpx ▸ hword.symm⟩, hpx ▸ hlt⟩
  · rcases hwords w with ⟨v, hv, hread⟩ | ⟨-, hread⟩
    · obtain ⟨-, e, ea, hea, hword, hval⟩ := hels _ hv
      exact .inr ⟨e, ea, hea, hword, hread ▸ hval⟩
    · exact .inl hread

/-- What a scatter all of whose words can be reached leaves in memory (R282). -/
def WrittenByScatter (s : State) (eas : List Addr) (vals : List Word) (mem : Memory) : Prop :=
  (∀ x, ¬ Names s eas (x / 8) → Memory.readByte mem x = Memory.readByte s.mem x) ∧
  ∀ ea ∈ eas, ∃ e : Nat, ∃ ea', eas[e]? = some ea' ∧ s.wordOf ea' = s.wordOf ea ∧
    vals[e]? = some (Memory.readWord mem (s.wordOf ea))

theorem blockWrite_scatter {s : State} {eas : List Addr} {vals : List Word} (hlen : vals.length = eas.length)
    (h : ReachesAll s true eas) :
    ∃ refs mem log clock d, WrittenByScatter s eas vals mem ∧
      s.blockWrite true eas vals = .ok { s with
        cpu := { s.cpu with refs := refs }, mem := mem, writeLog := log, writeClock := clock, draws := d } := by
  have hor := reachesAll_or h
  have hout : someOut (located s eas) = false := by rw [located_all h, someOut_all]
  obtain ⟨refs, puts, d, hputs, hwrite⟩ := blockWrite_located true vals hor
  have hels : WritesElements s eas vals puts := hputs ▸ blockPuts_writesElements hor _ _
  obtain ⟨mem, log, clock, hmem, hbytes, hwords⟩ := memWrites_cases (s.withCpu { s.cpu with refs := refs }) puts
  rw [hmem, hout] at hwrite
  refine ⟨refs, mem, log, clock, _, ⟨fun x hx => hbytes x fun p hp hpx => ?_, fun ea hea => ?_⟩, hwrite⟩
  · obtain ⟨-, e, ea, hea, hword, -⟩ := hels p hp
    exact hx ⟨ea, List.mem_of_getElem? hea, hpx ▸ hword.symm⟩
  · have hnamed : some (s.wordOf ea) ∈ ((located s eas).zip vals).map Prod.fst := by
      rw [List.map_fst_zip (by simp [located, hlen]), located_all h]
      exact List.mem_map_of_mem (List.mem_map_of_mem hea)
    obtain ⟨w, hw⟩ : ∃ w, some (s.wordOf ea, w) ∈ puts := by
      rw [hputs, hout]
      exact blockPuts_scatter_mem 0 List.not_mem_nil hnamed
    rcases hwords (s.wordOf ea) with ⟨v, hv, hread⟩ | ⟨hnone, -⟩
    · obtain ⟨-, e, ea', hea', hword, hval⟩ := hels _ hv
      exact ⟨e, ea', hea', hword, hread ▸ hval⟩
    · exact absurd rfl (hnone _ hw)

/-! ## The statements -/

/-- Settles O29: the strided write in fixed order, and the scatter. -/
theorem vectorStores : Obligations.VectorStores := by
  intro s j k hv _
  refine ⟨fun h => ?_, fun h => ?_⟩
  · show StoresInOrder (storeV false j (s.strideAddrs (s.akVal k)) s) s _ _ _
    rw [storeV_eq hv]
    exact storesInOrder s _ _ true h State.markVector fun _ => rfl
  · show ∃ t, storeV true j (s.indexAddrs k) s = .next t ∧ _
    obtain ⟨refs, mem, log, clock, d, ⟨hbytes, hwords⟩, hwrite⟩ :=
      blockWrite_scatter (vals := (List.range s.cpu.vl.toNat).map fun e => s.velem j (BitVec.ofNat 6 e))
        (by simp) h
    rw [storeV_eq hv, hwrite]
    exact ⟨_, rfl, moved_advance _ _ _ rfl, hbytes, hwords, rfl⟩

/-- What a block or vector write of `vals` at `eas` does when some element is aborted. -/
def StoresPartly (o : Out) (s : State) (vused : Bool) (eas : List Addr) (vals : List Word) : Prop :=
  ∃ t, o = .next t ∧ Moved s t 1 ∧ ReportsOperandRange s t ∧
    SameBytesOutside s t (fun w => Names s eas w ∧ w < s.cpu.dla.toNat) ∧
    (∀ w, Names s eas w → w < s.cpu.dla.toNat →
      Memory.readWord t.mem w = Memory.readWord s.mem w ∨
      ∃ e : Nat, ∃ ea, eas[e]? = some ea ∧ s.wordOf ea = w ∧ vals[e]? = some (Memory.readWord t.mem w)) ∧
    t = { s with cpu := { s.cpu with p := t.cpu.p, refs := t.cpu.refs, vused := vused, f := t.cpu.f }
                 mem := t.mem, writeLog := t.writeLog, writeClock := t.writeClock, draws := t.draws }

section
variable {s : State} {eas : List Addr} (h : ReachesSome s true eas) (sc : Bool) (vals : List Word)
include h

theorem blockWrite_storesPartly :
    StoresPartly (orStop (s.blockWrite sc eas vals) fun t => t.done 1) s s.cpu.vused eas vals := by
  obtain ⟨refs, mem, log, clock, d, ⟨hbytes, hwords⟩, hwrite⟩ := blockWrite_partly sc vals h
  rw [hwrite]
  exact ⟨_, rfl, moved_advance _ _ _ rfl, reportsOperandRange_raiseOre rfl, hbytes, hwords, rfl⟩

theorem blockWrite_vector_storesPartly :
    StoresPartly (orStop (s.blockWrite sc eas vals) fun t => t.markVector.done 1) s true eas vals := by
  obtain ⟨refs, mem, log, clock, d, ⟨hbytes, hwords⟩, hwrite⟩ := blockWrite_partly sc vals h
  rw [hwrite]
  exact ⟨_, rfl, moved_advance _ _ _ rfl, reportsOperandRange_raiseOre rfl, hbytes, hwords, rfl⟩

end

/-- Settles O30: the two block writes, the strided write and the scatter. -/
theorem partlyAbortedStores : Obligations.PartlyAbortedStores := by
  intro s i j k jk
  refine ⟨fun hfit h => ?_, fun hv _ => ⟨fun h => ?_, fun h => ?_⟩⟩
  · show StoresPartly (exec (.stBBlk i jk) s) s _ _ _ ∧ StoresPartly (exec (.stTBlk i jk) s) s _ _ _
    rw [exec_stBBlk hfit, exec_stTBlk hfit]
    exact ⟨blockWrite_storesPartly h _ _, blockWrite_storesPartly h _ _⟩
  · show StoresPartly (storeV false j (s.strideAddrs (s.akVal k)) s) s _ _ _
    rw [storeV_eq hv]
    exact blockWrite_vector_storesPartly h _ _
  · show StoresPartly (storeV true j (s.indexAddrs k) s) s _ _ _
    rw [storeV_eq hv]
    exact blockWrite_vector_storesPartly h _ _

end Sys2Proof.Machine
end

section
/-! Where no two references may overlap (20_memory.md R98, R99), or none is remembered (R256), no instruction answers
the overlap race: the one stop for it is in the claiming of references. -/

namespace Sys2Proof.Machine

open Sys2Proof

/-! ## Outcomes that are no race -/

/-- The outcome is not the stop on an overlap race. -/
def Raceless (o : Out) : Prop := o ≠ .fault .overlapRace

theorem raceless_next (t : State) : Raceless (.next t) := nofun

theorem raceless_refused (r : Refusal) : Raceless (.refused r) := nofun

theorem raceless_ite {c : Prop} [Decidable c] {a b : Out} (ha : Raceless a) (hb : Raceless b) :
    Raceless (if c then a else b) := by
  split
  · exact ha
  · exact hb

theorem raceless_unless {c : Prop} [Decidable c] {r : Refusal} {o : Out} (h : Raceless o) :
    Raceless (if c then .refused r else o) := raceless_ite (raceless_refused r) h

theorem raceless_orStop {α : Type} {r : Except Stop α} {k : α → Out} (hr : r ≠ .error (.fault .overlapRace))
    (hk : ∀ x, Raceless (k x)) : Raceless (orStop r k) := by
  cases r with
  | ok x => exact hk x
  | error e =>
    cases e with
    | refuse q => exact raceless_refused q
    | fault q => exact fun h => hr (congrArg _ (congrArg _ (Host.Outcome.fault.inj h)))

theorem raceless_exchange (s : State) : Raceless s.exchangeSequence :=
  raceless_ite nofun <| raceless_ite nofun <| raceless_unless <| raceless_unless <| raceless_next _

theorem raceless_withChannel {s : State} {k : Channel → Out} (ch : Addr) (h : ∀ c, Raceless (k c)) :
    Raceless (s.withChannel ch k) := by
  unfold State.withChannel
  cases s.channel ch with
  | none => exact raceless_refused _
  | some c => exact h c

theorem raceless_withDisp22 {k : Addr → Out} (jkm : BitVec 22) (h : ∀ d, Raceless (k d)) :
    Raceless (withDisp22 jkm k) := by
  unfold withDisp22
  cases disp22 jkm with
  | none => exact raceless_refused _
  | some d => exact h d

theorem raceless_aFromCi (i : BitVec 3) (s : State) : Raceless (execAFromCi i s) := by
  unfold execAFromCi
  cases s.requesting with
  | none => exact raceless_next _
  | some c => exact raceless_next _

/-! ## References that no earlier one races with -/

/-- No earlier reference of the CPU is unordered with any new one. -/
def State.Unraced (s : State) : Prop := ∀ x, ∀ y ∈ s.cpu.refs, s.cpu.unordered y x = false

/-- Without BDM, CBW and SBO no two references may overlap (R98). -/
theorem unraced_of_bits {s : State} (hb : s.cpu.m.bdm = false) (hc : s.cpu.cbw = false) (hs : s.cpu.sbo = false) :
    s.Unraced := fun x y _ => by simp [Cpu.unordered, Cpu.overlaps, hb, hc, hs]

/-- After CMR no earlier reference is remembered (R256). -/
theorem unraced_of_refs_nil {s : State} (h : s.cpu.refs = []) : s.Unraced := fun x y hy => by
  rw [h] at hy
  cases hy

theorem locate_ne_race {s : State} {ea : Addr} {e : Stop} (h : s.locate ea = .error e) : e ≠ .fault .overlapRace := by
  rintro rfl
  simp only [State.locate] at h
  repeat' split at h
  all_goals cases h

theorem locateAll_ne_race {s : State} {eas : List Addr} {e : Stop} (h : s.locateAll eas = .error e) :
    e ≠ .fault .overlapRace := by
  induction eas with
  | nil => cases h
  | cons ea rest ih =>
    rw [State.locateAll] at h
    cases hx : s.locate ea with
    | error q =>
      rw [hx] at h
      exact Except.error.inj h ▸ locate_ne_race hx
    | ok x =>
      rw [hx] at h
      cases hxs : s.locateAll rest with
      | error q =>
        rw [hxs] at h
        exact ih (hxs.trans h)
      | ok xs =>
        rw [hxs] at h
        cases h

section
variable {s : State} (h : s.Unraced)
include h

theorem claim_unraced (new : List Ref) : ∃ t, s.claim new = .ok t := by
  refine ⟨_, claim_ok.mpr ⟨?_, rfl⟩⟩
  simp only [List.any_eq_false, Bool.not_eq_true]
  exact fun x _ y hy => h x y hy

theorem dataRead_ne_race (ea : Addr) : s.dataRead ea ≠ .error (.fault .overlapRace) := by
  unfold State.dataRead
  cases hx : s.locate ea with
  | error e => exact fun he => locate_ne_race hx (Except.error.inj he)
  | ok x =>
    cases x with
    | none => nofun
    | some a =>
      obtain ⟨t, ht⟩ := claim_unraced h [{ addr := a, block := false, write := false }]
      simp only [ht]
      nofun

theorem dataWrite_ne_race (ea : Addr) (v : Word) : s.dataWrite ea v ≠ .error (.fault .overlapRace) := by
  unfold State.dataWrite
  cases hx : s.locate ea with
  | error e => exact fun he => locate_ne_race hx (Except.error.inj he)
  | ok x =>
    cases x with
    | none => nofun
    | some a =>
      obtain ⟨t, ht⟩ := claim_unraced h [{ addr := a, block := false, write := true }]
      simp only [ht]
      nofun

theorem blockRead_ne_race (eas : List Addr) : s.blockRead eas ≠ .error (.fault .overlapRace) := by
  unfold State.blockRead
  cases hl : s.locateAll eas with
  | error e => exact fun he => locateAll_ne_race hl (Except.error.inj he)
  | ok l =>
    obtain ⟨t, ht⟩ := claim_unraced h (refsOf true false l)
    simp only [ht]
    nofun

theorem blockWrite_ne_race (sc : Bool) (eas : List Addr) (vals : List Word) :
    s.blockWrite sc eas vals ≠ .error (.fault .overlapRace) := by
  unfold State.blockWrite
  cases hl : s.locateAll eas with
  | error e => exact fun he => locateAll_ne_race hl (Except.error.inj he)
  | ok l =>
    obtain ⟨t, ht⟩ := claim_unraced h (refsOf true true l)
    simp only [ht]
    nofun

/-! ## Every instruction -/

theorem raceless_loadA (i : BitVec 3) (ea : Addr) (n : Nat) : Raceless (loadA i ea n s) :=
  raceless_orStop (dataRead_ne_race h ea) fun _ => raceless_next _

theorem raceless_loadS (i : BitVec 3) (ea : Addr) (n : Nat) : Raceless (loadS i ea n s) :=
  raceless_orStop (dataRead_ne_race h ea) fun _ => raceless_next _

theorem raceless_storeA (i : BitVec 3) (ea : Addr) (n : Nat) : Raceless (storeA i ea n s) :=
  raceless_orStop (dataWrite_ne_race h ea _) fun _ => raceless_next _

theorem raceless_storeS (i : BitVec 3) (ea : Addr) (n : Nat) : Raceless (storeS i ea n s) :=
  raceless_orStop (dataWrite_ne_race h ea _) fun _ => raceless_next _

theorem raceless_loadV (i : BitVec 3) (eas : List Addr) : Raceless (loadV i eas s) :=
  raceless_unless <| raceless_orStop (blockRead_ne_race h eas) fun _ => raceless_next _

theorem raceless_storeV (sc : Bool) (j : BitVec 3) (eas : List Addr) : Raceless (storeV sc j eas s) :=
  raceless_unless <| raceless_orStop (blockWrite_ne_race h sc eas _) fun _ => raceless_next _

theorem exec_raceless (i : Instr) : Raceless (exec i s) := by
  cases i with
  | ex | err => exact raceless_exchange _
  | aImm24 | aImm22 | aImm22c | aImm32 | aImm32c | aImm6 | aFromS | aFromVl | aFromB | bFromA | aAdd | aSub | aMul
  | aPop | aParity | aLzc => exact raceless_next _
  | sImm22 | sImm22c | sImm32 | sImm32c | sMaskr | sMaskl | sFc06 | sFc04 | sFc1 | sFc2 | sFc4 | sFromA | sFromASx
  | sFromAFlt | sFromRtc | sFromVm | sFromSr | sFromT | tFromS | vmFromS | sAdd | sSub | sAnd | sAndn | sXor | sXnor
  | sMerge | sOr | s0Shl | s0Shr | sShl | sShr | sDshl | sDshr => exact raceless_next _
  | dbm | ebm | dcbw | ecbw | dsbo | esbo | efi | dfi | eri | dri | cmr | pass | jExp | rExp => exact raceless_next _
  | sFadd | sFsub | sFmul | sFmulH | sFmulR | sFiter | sFrecip => exact raceless_next _
  | vAddSv | vAddVv | vSubSv | vSubVv | vAndSv | vAndVv | vOrSv | vOrVv | vXorSv | vXorVv | vMergeSv | vMergeVv | vShl
  | vShr | vPop | vParity => exact raceless_unless (raceless_next _)
  | vDshl | vDshr => exact raceless_unless (raceless_unless (raceless_next _))
  | vFaddSv | vFaddVv | vFsubSv | vFsubVv | vFmulSv | vFmulVv | vFmulHSv | vFmulHVv | vFmulRSv | vFmulRVv | vFrecip
  | vFiterSv | vFiterVv | vImul32 => exact raceless_unless (raceless_next _)
  | vmTestZ | vmTestN | vmTestP | vmTestM => exact raceless_unless (raceless_next _)
  | vmCidxZ | vmCidxN | vmCidxP | vmCidxM => exact raceless_unless (raceless_unless (raceless_next _))
  | aFromSb | sFromSm | sFromSt | sbFromA | smFromS | stFromS | smClr | smSet => exact raceless_unless (raceless_next _)
  | smTs => exact raceless_unless (raceless_ite (raceless_next _) (raceless_next _))
  | sFromVelem | velemFromS | vlFromA | jB => exact raceless_unless (raceless_next _)
  | jaz | jan | jap | jam | jsz | jsn | jsp | jsm => exact raceless_ite (raceless_next _) (raceless_next _)
  | ldAX => exact raceless_withDisp22 _ fun _ => raceless_loadA h _ _ _
  | ldAY => exact raceless_loadA h _ _ _
  | stAX => exact raceless_withDisp22 _ fun _ => raceless_storeA h _ _ _
  | stAY => exact raceless_storeA h _ _ _
  | ldSX => exact raceless_withDisp22 _ fun _ => raceless_loadS h _ _ _
  | ldSY => exact raceless_loadS h _ _ _
  | stSX => exact raceless_withDisp22 _ fun _ => raceless_storeS h _ _ _
  | stSY => exact raceless_storeS h _ _ _
  | ldBBlk | ldTBlk =>
    exact raceless_ite (raceless_orStop (blockRead_ne_race h _) fun _ => raceless_next _) (raceless_refused _)
  | stBBlk | stTBlk =>
    exact raceless_ite (raceless_orStop (blockWrite_ne_race h _ _ _) fun _ => raceless_next _) (raceless_refused _)
  | ldV => exact raceless_loadV h _ _
  | ldVGather => exact raceless_unless (raceless_loadV h _ _)
  | stV | stVScatter => exact raceless_storeV h _ _ _
  | chCa | chCl =>
    exact raceless_ite (raceless_withChannel _ fun _ => raceless_unless (raceless_next _)) (raceless_next _)
  | chCi | chMc => exact raceless_ite (raceless_withChannel _ fun _ => raceless_next _) (raceless_next _)
  | xaFromA | pciLoad | clnLoad => exact raceless_ite (raceless_unless (raceless_next _)) (raceless_next _)
  | rtcLoad | cci | eci | dci | cipi => exact raceless_ite (raceless_next _) (raceless_next _)
  | sipi => exact raceless_ite (raceless_unless (raceless_unless (raceless_next _))) (raceless_next _)
  | aFromCi => exact raceless_aFromCi _ _
  | aFromCa | aFromCe => exact raceless_withChannel _ fun _ => raceless_next _

end

/-- Settles O32: no reference is unordered with an earlier one without the three bits, or right after CMR. -/
theorem programOrderWithoutOverlap : Obligations.ProgramOrderWithoutOverlap := by
  refine fun s => ⟨fun hb hc hs => exec_raceless (unraced_of_bits hb hc hs), fun t ht => ?_⟩
  obtain rfl : (s.withCpu { s.cpu with refs := [] }).advance 1 = t := Host.Outcome.next.inj ht
  exact exec_raceless (unraced_of_refs_nil rfl)

end Sys2Proof.Machine
end

section
/-! Decoding and the instruction's length (30_encoding.md R125): what is decoded has the length that the first parcel
tells, and the parcels beyond it are not read. -/

namespace Sys2Proof

/-- The length that fields g and h of the first parcel tell (R125). -/
def fieldsLength (eam : Bool) (g : BitVec 4) (h : BitVec 3) : Nat :=
  if g.toNat = 0 then (if h.toNat = 6 ∨ h.toNat = 7 then 2 else 1)
  else if g.toNat = 1 then 2
  else if (g.toNat = 2 ∨ g.toNat = 4) ∧ h.toNat < 2 then (if eam then 3 else 2)
  else if 8 ≤ g.toNat ∧ g.toNat < 12 then (if eam then 3 else 2)
  else 1

theorem instrLength_eq (p0 : Parcel) (eam : Bool) : instrLength p0 eam = fieldsLength eam (fieldG p0) (fieldH p0) := rfl

/-- What is decoded, if anything is, is `n` parcels long. -/
def hasLength (o : Option Instr) (n : Nat) : Bool := o.all fun x => x.length == n

theorem length_of_hasLength {o : Option Instr} {n : Nat} {x : Instr} (h : hasLength o n = true) (hx : o = some x) :
    x.length = n := by
  rw [hx] at h
  exact eq_of_beq h

theorem bitVec3_cases (h : BitVec 3) : h = 0 ∨ h = 1 ∨ h = 2 ∨ h = 3 ∨ h = 4 ∨ h = 5 ∨ h = 6 ∨ h = 7 := by
  revert h
  decide

theorem bitVec4_cases (g : BitVec 4) : g = 0 ∨ g = 1 ∨ g = 2 ∨ g = 3 ∨ g = 4 ∨ g = 5 ∨ g = 6 ∨ g = 7 ∨
    g = 8 ∨ g = 9 ∨ g = 10 ∨ g = 11 ∨ g = 12 ∨ g = 13 ∨ g = 14 ∨ g = 15 := by
  revert g
  decide

theorem hasLength_ite {c : Prop} [Decidable c] {o q : Option Instr} {n : Nat} (ho : hasLength o n = true)
    (hq : hasLength q n = true) : hasLength (if c then o else q) n = true := by
  split
  · exact ho
  · exact hq

section
variable (eam : Bool) (h i j k : BitVec 3) (m n : Parcel)

/-! ## The length of each row (R129) -/

theorem decode001_length : hasLength (decode001 i j k) 1 = true := by
  unfold decode001
  repeat' split
  all_goals rfl

theorem decode002_length : hasLength (decode002 i j k) 1 = true := by
  unfold decode002
  repeat' split
  all_goals rfl

theorem decode003_length : hasLength (decode003 i j k) 1 = true := by
  unfold decode003
  repeat' split
  all_goals rfl

theorem decode071_length : hasLength (decode071 i j k) 1 = true := by
  unfold decode071
  repeat' split
  all_goals rfl

theorem decode175_length : hasLength (decode175 i j k) 1 = true := by
  unfold decode175
  repeat' split
  all_goals rfl

theorem byMode_length {x : BitVec 22 → Instr} {y : BitVec 32 → Instr} (hx : ∀ d, (x d).length = 2)
    (hy : ∀ d, (y d).length = 3) : hasLength (byMode eam j k m n x y) (if eam then 3 else 2) = true := by
  cases eam with
  | false => exact beq_iff_eq.mpr (hx _)
  | true =>
    show hasLength (if j = 0 ∧ k = 0 then some (y (joinNm m n)) else none) 3 = true
    exact hasLength_ite (beq_iff_eq.mpr (hy _)) rfl

theorem decodeG0_length : hasLength (decodeG0 h i j k m) (fieldsLength eam 0 h) = true := by
  rcases bitVec3_cases h with rfl | rfl | rfl | rfl | rfl | rfl | rfl | rfl
  · exact hasLength_ite rfl rfl
  · exact decode001_length i j k
  · exact decode002_length i j k
  · exact decode003_length i j k
  · exact hasLength_ite rfl rfl
  · exact hasLength_ite rfl rfl
  · exact hasLength_ite rfl rfl
  · exact hasLength_ite rfl rfl

theorem decodeG1_length : hasLength (decodeG1 eam h i j k m) 2 = true := by
  unfold decodeG1
  repeat' split
  all_goals rfl

theorem decodeG2_length : hasLength (decodeG2 eam h i j k m n) (fieldsLength eam 2 h) = true := by
  rcases bitVec3_cases h with rfl | rfl | rfl | rfl | rfl | rfl | rfl | rfl
  · exact byMode_length eam j k m n (fun _ => rfl) fun _ => rfl
  · exact byMode_length eam j k m n (fun _ => rfl) fun _ => rfl
  all_goals
    unfold decodeG2
    simp only [BitVec.reduceToNat]
    repeat' split
    all_goals rfl

theorem decodeG4_length : hasLength (decodeG4 eam h i j k m n) (fieldsLength eam 4 h) = true := by
  rcases bitVec3_cases h with rfl | rfl | rfl | rfl | rfl | rfl | rfl | rfl
  · exact byMode_length eam j k m n (fun _ => rfl) fun _ => rfl
  · exact byMode_length eam j k m n (fun _ => rfl) fun _ => rfl
  all_goals rfl

theorem decodeG3_length : hasLength (decodeG3 h i j k) 1 = true := by
  unfold decodeG3
  repeat' split
  all_goals rfl

theorem decodeG5_length : hasLength (decodeG5 h i j k) 1 = true := by
  unfold decodeG5
  repeat' split
  all_goals rfl

theorem decodeG6_length : hasLength (decodeG6 h i j k) 1 = true := by
  unfold decodeG6
  repeat' split
  all_goals rfl

theorem decodeG12_length : hasLength (decodeG12 h i j k) 1 = true := by
  unfold decodeG12
  repeat' split
  all_goals rfl

theorem decodeG13_length : hasLength (decodeG13 h i j k) 1 = true := by
  unfold decodeG13
  repeat' split
  all_goals rfl

theorem decodeG7_length : hasLength (decodeG7 h i j k) 1 = true := by
  rcases bitVec3_cases h with rfl | rfl | rfl | rfl | rfl | rfl | rfl | rfl
  · exact hasLength_ite rfl rfl
  · exact decode071_length i j k
  all_goals
    unfold decodeG7
    simp only [BitVec.reduceToNat]
    repeat' split
    all_goals rfl

theorem decodeG14_length : hasLength (decodeG14 eam h i j k) 1 = true := by
  unfold decodeG14
  repeat' split
  all_goals rfl

theorem decodeG15_length : hasLength (decodeG15 h i j k) 1 = true := by
  rcases bitVec3_cases h with rfl | rfl | rfl | rfl | rfl | rfl | rfl | rfl
  rotate_left 5
  · exact decode175_length i j k
  all_goals
    unfold decodeG15
    simp only [BitVec.reduceToNat]
    repeat' split
    all_goals rfl

theorem decodeFields_length (g : BitVec 4) :
    hasLength (decodeFields eam g h i j k m n) (fieldsLength eam g h) = true := by
  rcases bitVec4_cases g with
    rfl | rfl | rfl | rfl | rfl | rfl | rfl | rfl | rfl | rfl | rfl | rfl | rfl | rfl | rfl | rfl
  · exact decodeG0_length eam h i j k m
  · exact decodeG1_length eam h i j k m
  · exact decodeG2_length eam h i j k m n
  · exact decodeG3_length h i j k
  · exact decodeG4_length eam h i j k m n
  · exact decodeG5_length h i j k
  · exact decodeG6_length h i j k
  · exact decodeG7_length h i j k
  · exact byMode_length eam j k m n (fun _ => rfl) fun _ => rfl
  · exact byMode_length eam j k m n (fun _ => rfl) fun _ => rfl
  · exact byMode_length eam j k m n (fun _ => rfl) fun _ => rfl
  · exact byMode_length eam j k m n (fun _ => rfl) fun _ => rfl
  · exact decodeG12_length h i j k
  · exact decodeG13_length h i j k
  · exact decodeG14_length eam h i j k
  · exact decodeG15_length h i j k

/-! ## The parcels that are read -/

/-- The second parcel of an instruction of two. -/
theorem if_one_lt_two (m : Parcel) : (if 1 < 2 then m else 0) = m := rfl

theorem byMode_reads (x : BitVec 22 → Instr) (y : BitVec 32 → Instr) :
    byMode eam j k m n x y =
      byMode eam j k (if 1 < (if eam then 3 else 2) then m else 0)
        (if 2 < (if eam then 3 else 2) then n else 0) x y := by
  cases eam with
  | false => simp only [byMode, Bool.false_eq_true, if_false, Nat.one_lt_ofNat, if_true]
  | true => simp only [byMode, if_true, Nat.one_lt_ofNat, Nat.reduceLT]

theorem decodeG0_reads : decodeG0 h i j k m = decodeG0 h i j k (if 1 < fieldsLength eam 0 h then m else 0) := by
  rcases bitVec3_cases h with rfl | rfl | rfl | rfl | rfl | rfl | rfl | rfl
  rotate_left 6
  · exact congrArg (decodeG0 6 i j k) (if_one_lt_two m).symm
  · exact congrArg (decodeG0 7 i j k) (if_one_lt_two m).symm
  all_goals simp only [decodeG0, BitVec.reduceToNat]

theorem decodeG2_reads : decodeG2 eam h i j k m n =
    decodeG2 eam h i j k (if 1 < fieldsLength eam 2 h then m else 0) (if 2 < fieldsLength eam 2 h then n else 0) := by
  rcases bitVec3_cases h with rfl | rfl | rfl | rfl | rfl | rfl | rfl | rfl
  · exact byMode_reads eam j k m n _ _
  · exact byMode_reads eam j k m n _ _
  all_goals simp only [decodeG2, BitVec.reduceToNat]

theorem decodeG4_reads : decodeG4 eam h i j k m n =
    decodeG4 eam h i j k (if 1 < fieldsLength eam 4 h then m else 0) (if 2 < fieldsLength eam 4 h then n else 0) := by
  rcases bitVec3_cases h with rfl | rfl | rfl | rfl | rfl | rfl | rfl | rfl
  · exact byMode_reads eam j k m n _ _
  · exact byMode_reads eam j k m n _ _
  all_goals simp only [decodeG4, BitVec.reduceToNat]

theorem decodeFields_reads (g : BitVec 4) : decodeFields eam g h i j k m n =
    decodeFields eam g h i j k (if 1 < fieldsLength eam g h then m else 0)
      (if 2 < fieldsLength eam g h then n else 0) := by
  rcases bitVec4_cases g with
    rfl | rfl | rfl | rfl | rfl | rfl | rfl | rfl | rfl | rfl | rfl | rfl | rfl | rfl | rfl | rfl
  · exact decodeG0_reads eam h i j k m
  · exact congrArg (decodeG1 eam h i j k) (if_one_lt_two m).symm
  · exact decodeG2_reads eam h i j k m n
  · exact Eq.refl (decodeG3 h i j k)
  · exact decodeG4_reads eam h i j k m n
  · exact Eq.refl (decodeG5 h i j k)
  · exact Eq.refl (decodeG6 h i j k)
  · exact Eq.refl (decodeG7 h i j k)
  · exact byMode_reads eam j k m n _ _
  · exact byMode_reads eam j k m n _ _
  · exact byMode_reads eam j k m n _ _
  · exact byMode_reads eam j k m n _ _
  · exact Eq.refl (decodeG12 h i j k)
  · exact Eq.refl (decodeG13 h i j k)
  · exact Eq.refl (decodeG14 eam h i j k)
  · exact Eq.refl (decodeG15 h i j k)

end

/-- What is decoded is as long as the first parcel tells (R125). -/
theorem length_of_decode {eam : Bool} {p0 m n : Parcel} {x : Instr} (h : decode eam p0 m n = some x) :
    x.length = instrLength p0 eam := length_of_hasLength (decodeFields_length eam _ _ _ _ m n _) h

/-- Parcels beyond the length do not matter (R128). -/
theorem decode_reads (eam : Bool) (p0 m n : Parcel) : decode eam p0 m n =
    decode eam p0 (if 1 < instrLength p0 eam then m else 0) (if 2 < instrLength p0 eam then n else 0) :=
  decodeFields_reads eam _ _ _ _ m n _

end Sys2Proof
end

section
/-! Fetching the instruction at P (20_memory.md R88, R89; 60_exceptions.md R518, R519, R524, R530): parcel by parcel,
with the errors that accompany the reads; what a step then issues, and where it stops at the limit. -/

namespace Sys2Proof.Machine

open Sys2Proof

/-! ## The state after the fetch of some parcels -/

/-- The state after the first `n` parcels are fetched without an uncorrectable error: their errors are noted. -/
def State.fetched (s : State) (n : Nat) : State := s.withCpu (s.cpu.noteErrors (s.fetchErrors n))

section
variable (s : State) (n : Nat)

/-- The first parcel of the instruction is the one at P. -/
theorem parcelAddr_zero : s.cpu.p + BitVec.ofNat 24 0 = s.cpu.p := BitVec.add_zero _

theorem fetchErrors_succ : s.fetchErrors (n + 1) = s.fetchErrors n ++ s.errorsAt (.fetch n) := by
  simp [State.fetchErrors, List.range_succ]

theorem fetched_succ : s.fetched (n + 1) =
    (s.fetched n).withCpu ((s.fetched n).cpu.noteErrors ((s.fetched n).errorsAt (.fetch n))) := by
  simp only [State.fetched, fetchErrors_succ, noteErrors_append]
  rfl

/-- Nothing that a fetch looks at changes. -/
theorem fetched_cpu : ∃ cme ume f e,
    (s.fetched n).cpu = { s.cpu with cmeSeen := cme, umeSeen := ume, f := f, memErr := e } := by
  simp only [State.fetched, State.withCpu_cpu]
  rw [noteErrors_eq]
  exact ⟨_, _, _, _, rfl⟩

theorem fetched_p : (s.fetched n).cpu.p = s.cpu.p := by
  obtain ⟨cme, ume, f, e, h⟩ := fetched_cpu s n
  rw [h]

theorem fetched_m : (s.fetched n).cpu.m = s.cpu.m := by
  obtain ⟨cme, ume, f, e, h⟩ := fetched_cpu s n
  rw [h]

theorem fetched_ila : (s.fetched n).cpu.ila = s.cpu.ila := by
  obtain ⟨cme, ume, f, e, h⟩ := fetched_cpu s n
  rw [h]

theorem fetched_fetchAddr (p : PAddr) : (s.fetched n).fetchAddr p = s.fetchAddr p := by
  obtain ⟨cme, ume, f, e, h⟩ := fetched_cpu s n
  rw [State.fetchAddr, h]
  rfl

theorem fetched_parcelAt (p : PAddr) : (s.fetched n).parcelAt p = s.parcelAt p := by
  rw [State.parcelAt, fetched_fetchAddr]
  rfl

theorem fetched_stale (a : Nat) : (s.fetched n).stale a = s.stale a := by
  obtain ⟨cme, ume, f, e, h⟩ := fetched_cpu s n
  rw [State.stale, h]
  rfl

end

section
variable {s : State} {n : Nat}

theorem fetched_fetches {p : PAddr} (h : Fetches s p) : Fetches (s.fetched n) p := by
  unfold Fetches
  rw [fetched_fetchAddr, fetched_ila, fetched_stale]
  exact h

theorem not_spoiled_of_le {k : Nat} (h : k ≤ n) (hc : spoiled (s.fetchErrors n) = false) :
    spoiled (s.fetchErrors k) = false := by
  induction h with
  | refl => exact hc
  | step _ ih =>
    rw [fetchErrors_succ, spoiled_append, Bool.or_eq_false_iff] at hc
    exact ih hc.1

theorem not_spoiled_fetch (hc : spoiled (s.fetchErrors (n + 1)) = false) : spoiled (s.errorsAt (.fetch n)) = false := by
  rw [fetchErrors_succ, spoiled_append, Bool.or_eq_false_iff] at hc
  exact hc.2

/-- Fetching one parcel more. -/
theorem withParcel_fetched (hf : Fetches s (s.cpu.p + BitVec.ofNat 24 n))
    (hc : spoiled (s.fetchErrors (n + 1)) = false) (k : Parcel → State → Out) :
    (s.fetched n).withParcel n k = k (s.parcelAt (s.cpu.p + BitVec.ofNat 24 n)) (s.fetched (n + 1)) := by
  have hclean := fetchParcel_clean (s := s.fetched n) (n := n) (by rw [fetched_p]; exact fetched_fetches hf)
    (not_spoiled_fetch hc)
  rw [State.withParcel, hclean, fetched_p, fetched_parcelAt, fetched_succ]
  rfl

/-- A parcel exactly at the limit stops the fetch (decision D9). -/
theorem withParcel_at_limit (h : s.fetchAddr (s.cpu.p + BitVec.ofNat 24 n) = s.cpu.ila.toNat)
    (k : Parcel → State → Out) : (s.fetched n).withParcel n k = .refused .limitEquality := by
  have hstop : (s.fetched n).fetchParcel n = .error (.refuse .limitEquality) := by
    rw [← fetched_fetchAddr s n, ← fetched_ila s n, ← fetched_p s n] at h
    simp only [State.fetchParcel, h, lt_irrefl, if_false, if_true]
  rw [State.withParcel, hstop]
  rfl

/-- The first parcel above the limit is a program range error (R518). -/
theorem fetchAndIssue_above_limit (h : s.cpu.ila.toNat < s.fetchAddr s.cpu.p) : s.fetchAndIssue = s.programRange := by
  have hnone : s.fetchParcel 0 = .ok none := by
    rw [State.fetchParcel, parcelAddr_zero]
    exact if_pos h
  rw [State.fetchAndIssue, State.withParcel, hnone]
  rfl

/-! ## The instruction at P -/

/-- Going on with the second parcel of an instruction of more than one. -/
def issueLong (p0 m : Parcel) (t : State) : Out :=
  if instrLength p0 t.cpu.m.eam = 2 then t.issueDecoded p0 m 0 else t.withParcel 2 fun n u => u.issueDecoded p0 m n

theorem fetchAndIssue_first (hf : Fetches s s.cpu.p) (hc : spoiled (s.fetchErrors 1) = false) :
    s.fetchAndIssue =
      if instrLength (s.parcelAt s.cpu.p) s.cpu.m.eam = 1 then (s.fetched 1).issueDecoded (s.parcelAt s.cpu.p) 0 0
      else (s.fetched 1).withParcel 1 (issueLong (s.parcelAt s.cpu.p)) := by
  have hfetch := withParcel_fetched (n := 0) ((parcelAddr_zero s).symm ▸ hf) hc
  rw [parcelAddr_zero] at hfetch
  exact (hfetch _).trans (by rw [fetched_m]; rfl)

theorem issueLong_fetched (p0 m : Parcel) : issueLong p0 m (s.fetched 2) =
    if instrLength p0 s.cpu.m.eam = 2 then (s.fetched 2).issueDecoded p0 m 0
    else (s.fetched 2).withParcel 2 fun n u => u.issueDecoded p0 m n := by
  rw [issueLong, fetched_m]

theorem instrLength_cases (p0 : Parcel) (eam : Bool) :
    instrLength p0 eam = 1 ∨ instrLength p0 eam = 2 ∨ instrLength p0 eam = 3 := by
  simp only [instrLength]
  repeat' split
  all_goals simp

/-- The parcels at P fetched and their instruction issued. -/
theorem fetchAndIssue_fetches {l : Nat} (hl : instrLength (s.parcelAt s.cpu.p) s.cpu.m.eam = l)
    (hf : ∀ n, n < l → Fetches s (s.cpu.p + BitVec.ofNat 24 n)) (hc : spoiled (s.fetchErrors l) = false) :
    s.fetchAndIssue = (s.fetched l).issueDecoded (s.parcelAt s.cpu.p)
      (if 1 < l then s.parcelAt (s.cpu.p + 1) else 0) (if 2 < l then s.parcelAt (s.cpu.p + 2) else 0) := by
  have hpos : 0 < l := by rcases instrLength_cases (s.parcelAt s.cpu.p) s.cpu.m.eam with h | h | h <;> omega
  have hf0 : Fetches s s.cpu.p := parcelAddr_zero s ▸ hf 0 hpos
  rw [fetchAndIssue_first hf0 (not_spoiled_of_le hpos hc), hl]
  rcases instrLength_cases (s.parcelAt s.cpu.p) s.cpu.m.eam with h | h | h
  all_goals obtain rfl := hl.symm.trans h
  · rfl
  · rw [if_neg (by decide), withParcel_fetched (hf 1 (by decide)) hc, issueLong_fetched, if_pos h]
    rfl
  · rw [if_neg (by decide), withParcel_fetched (hf 1 (by decide)) (not_spoiled_of_le (by decide) hc),
      issueLong_fetched, if_neg (by omega), withParcel_fetched (hf 2 (by decide)) hc]
    rfl

/-- A parcel that the length of the instruction calls for, exactly at the limit. -/
theorem fetchAndIssue_at_limit {n : Nat} (hn : n = 0 ∨ n < instrLength (s.parcelAt s.cpu.p) s.cpu.m.eam)
    (hf : ∀ m, m < n → Fetches s (s.cpu.p + BitVec.ofNat 24 m)) (hc : spoiled (s.fetchErrors n) = false)
    (h : s.fetchAddr (s.cpu.p + BitVec.ofNat 24 n) = s.cpu.ila.toNat) : s.fetchAndIssue = .refused .limitEquality := by
  cases n with
  | zero => exact withParcel_at_limit h _
  | succ k =>
    have hl := hn.resolve_left (Nat.succ_ne_zero k)
    have hf0 : Fetches s s.cpu.p := parcelAddr_zero s ▸ hf 0 (Nat.succ_pos k)
    rw [fetchAndIssue_first hf0 (not_spoiled_of_le (Nat.succ_pos k) hc), if_neg (by omega)]
    cases k with
    | zero => exact withParcel_at_limit h _
    | succ j =>
      obtain rfl : j = 0 := by rcases instrLength_cases (s.parcelAt s.cpu.p) s.cpu.m.eam with h | h | h <;> omega
      rw [withParcel_fetched (hf 1 (by decide)) hc, issueLong_fetched, if_neg (by omega)]
      exact withParcel_at_limit h _

/-! ## The step -/

/-- What a running CPU with no flag set and no test and set held does at its boundary (R530). -/
theorem step_fetches {u v : State} (hd : s.deliver = .ok u) (hrun : u.cpu.running = true) (hv : v = u.atBoundary)
    (hflag : v.cpu.f.any = false) (hhold : v.cpu.holding = none) : step s = v.fetchAndIssue := by
  obtain ⟨hstarted, hdead⟩ : u.cpu.started = true ∧ u.cpu.deadstart = false := by simpa [Cpu.running] using hrun
  subst hv
  show orStop s.deliver State.act = _
  rw [hd]
  simp [orStop, State.act, hstarted, hdead, State.boundary, hflag, State.issue, hhold]

end

/-- Settles O6: the parcels are fetched, their errors noted, and what they decode to is issued. -/
theorem stepRunsDecodedInstruction : Obligations.StepRunsDecodedInstruction := by
  intro s u v i hd hrun hv hflag hhold _ hf hdec
  have hlen := (length_of_decode hdec).symm
  have hissue : spoiled (v.fetchErrors i.length) = false → step s = exec i (v.fetched i.length) := fun hc => by
    rw [step_fetches hd hrun hv hflag hhold, fetchAndIssue_fetches hlen hf hc, State.issueDecoded, fetched_m]
    rw [decode_reads, hlen] at hdec
    rw [hdec]
  refine ⟨fun hnone => ?_, fun hc => ?_⟩
  · have hsame : v.fetched i.length = v := by rw [State.fetched, hnone]; rfl
    rw [hissue (by rw [hnone]; rfl), hsame]
  · refine ⟨v.cpu.noteErrors (v.fetchErrors i.length), errorsSeen_noteErrors _ _, ?_, hissue hc⟩
    rw [noteErrors_eq]

/-- Settles O8: the first parcel above the limit, and a parcel of the instruction exactly at it. -/
theorem programRangeError : Obligations.ProgramRangeError := by
  intro s u v hd hrun hv hflag hhold
  rw [step_fetches hd hrun hv hflag hhold]
  refine ⟨fun h => ?_, fun n hn hf hc h => fetchAndIssue_at_limit hn hf hc h⟩
  rw [fetchAndIssue_above_limit h]
  refine ⟨fun hgate => if_pos ?_, fun hmm himm => if_neg ?_⟩
  · simpa [immGate] using hgate
  · simp [immGate, hmm, himm]

end Sys2Proof.Machine
end

section
/-! The round trips of the encoding (30_encoding.md R121 to R128, R131): each layout of fields is taken apart and put
together again, once; the rows of the opcode map are then read off, layout by layout one way and digit by digit the
other. -/

namespace Sys2Proof

/-! ## The layouts (R121 to R123) -/

/-- A parcel is its five fields. -/
theorem mkParcel_fields (p : Parcel) : mkParcel (fieldG p) (fieldH p) (fieldI p) (fieldJ p) (fieldK p) = p := by
  unfold mkParcel fieldG fieldH fieldI fieldJ fieldK
  repeat rw [BitVec.extractLsb'_append_extractLsb'_eq_extractLsb' (by rfl)]
  exact BitVec.extractLsb'_eq_self

theorem exists_joinJk (jk : BitVec 6) : ∃ j k, joinJk j k = jk := ⟨_, _, joinJk_split jk⟩

theorem exists_joinJkm (jkm : BitVec 22) : ∃ j k m, joinJkm j k m = jkm := ⟨_, _, _, joinJkm_split jkm⟩

theorem exists_joinNm (nm : BitVec 32) : ∃ m n, joinNm m n = nm := ⟨_, _, joinNm_split nm⟩

/-- Every target has its fields under either format flag. -/
theorem exists_joinAddr24 (flag : BitVec 1) (a : BitVec 24) :
    ∃ i j k m, iFlag i = flag.getLsbD 0 ∧ joinAddr24 i j k m = a :=
  ⟨_, _, _, _, iFlag_flag flag _, joinAddr24_split flag a⟩

/-- Semaphore numbers, at most 37 octal, are those with `j` below 4 (R131). -/
theorem joinJk_lt_32 (j k : BitVec 3) : (joinJk j k).toNat < 32 ↔ j.toNat < 4 := by
  have hk := k.isLt
  rw [joinJk, BitVec.toNat_append, ← Nat.shiftLeft_add_eq_or_of_lt hk, Nat.shiftLeft_eq]
  omega

/-- The format flag and the two low bits are the whole field i. -/
theorem flag_append_low {i : BitVec 3} {flag : BitVec 1} (hflag : iFlag i = flag.getLsbD 0) :
    flag ++ i.extractLsb' 0 2 = i := by
  have htop : flag = i.extractLsb' 2 1 := by
    apply BitVec.eq_of_getLsbD_eq
    intro n hn
    obtain rfl : n = 0 := by omega
    simpa [iFlag] using hflag.symm
  rw [htop, BitVec.extractLsb'_append_extractLsb'_eq_extractLsb' (by rfl)]
  exact BitVec.extractLsb'_eq_self

section
variable (g : BitVec 4) (h i j k : BitVec 3) (m n : Parcel)

theorem encJk_joinJk : encJk g h i (joinJk j k) = [mkParcel g h i j k] := by
  rw [encJk, joinJk, BitVec.extractLsb'_append_eq_left, BitVec.extractLsb'_append_eq_right]

theorem encJkm_joinJkm : encJkm g h i (joinJkm j k m) = [mkParcel g h i j k, m] := by
  have hj : (joinJkm j k m).extractLsb' 19 3 = j := by
    rw [joinJkm, BitVec.extractLsb'_append_eq_of_le (by decide), BitVec.extractLsb'_append_eq_left]
  have hk : (joinJkm j k m).extractLsb' 16 3 = k := by
    rw [joinJkm, BitVec.extractLsb'_append_eq_of_le (by decide), BitVec.extractLsb'_append_eq_right]
  rw [encJkm, hj, hk, joinJkm, BitVec.extractLsb'_append_eq_right]

theorem encNm_joinNm : encNm g h i (joinNm m n) = [mkParcel g h i 0 0, m, n] := by
  rw [encNm, joinNm, BitVec.extractLsb'_append_eq_left, BitVec.extractLsb'_append_eq_right]

variable {i} in
theorem encAddr24_joinAddr24 {flag : BitVec 1} (hflag : iFlag i = flag.getLsbD 0) :
    encAddr24 g h flag (joinAddr24 i j k m) = [mkParcel g h i j k, m] := by
  have htop : (joinAddr24 i j k m).extractLsb' 22 2 = i.extractLsb' 0 2 := by
    rw [joinAddr24, BitVec.extractLsb'_append_eq_of_le (by decide), BitVec.extractLsb'_append_eq_of_le (by decide),
      BitVec.extractLsb'_append_eq_left]
  have hj : (joinAddr24 i j k m).extractLsb' 19 3 = j := by
    rw [joinAddr24, BitVec.extractLsb'_append_eq_of_le (by decide), BitVec.extractLsb'_append_eq_of_le (by decide),
      BitVec.extractLsb'_append_eq_right]
  have hk : (joinAddr24 i j k m).extractLsb' 16 3 = k := by
    rw [joinAddr24, BitVec.extractLsb'_append_eq_of_le (by decide), BitVec.extractLsb'_append_eq_right]
  rw [encAddr24, htop, hj, hk, flag_append_low hflag, joinAddr24, BitVec.extractLsb'_append_eq_right]

end

/-- 001000 is PASS, every other 0010jk names a channel (R128). -/
theorem wf_chCa (j k : BitVec 3) : (Instr.chCa j k).wf = true ↔ ¬ (j = 0 ∧ k = 0) := by
  rw [Instr.wf, Bool.not_eq_true', Bool.and_eq_false_iff, not_and_or, beq_eq_false_iff_ne, beq_eq_false_iff_ne]

theorem decode_mkParcel (eam : Bool) (g : BitVec 4) (h i j k : BitVec 3) (m n : Parcel) :
    decode eam (mkParcel g h i j k) m n = decodeFields eam g h i j k m n := by
  rw [decode, fieldG_mkParcel, fieldH_mkParcel, fieldI_mkParcel, fieldJ_mkParcel, fieldK_mkParcel]

/-! ## From an instruction to its parcels and back -/

/-- The parcels `ps`, whatever two parcels follow them, decode to `ins`. -/
def ReadFrom (eam : Bool) (ps : List Parcel) (ins : Instr) : Prop :=
  ∀ (x y p0 p1 p2 : Parcel) (rest : List Parcel), ps ++ [x, y] = p0 :: p1 :: p2 :: rest →
    decode eam p0 p1 p2 = some ins

section
variable {eam : Bool} {g : BitVec 4} {h i j k : BitVec 3} {m n : Parcel} {ins : Instr}

/-- F1 and the fixed forms: one parcel. -/
theorem readFrom_enc1 (hrow : ∀ m n, decodeFields eam g h i j k m n = some ins) :
    ReadFrom eam (enc1 g h i j k) ins := by
  rintro x y _ _ _ _ ⟨⟩
  rw [decode_mkParcel, hrow]

theorem readFrom_encJk (hrow : ∀ m n, decodeFields eam g h i j k m n = some ins) :
    ReadFrom eam (encJk g h i (joinJk j k)) ins := by
  rw [encJk_joinJk]
  exact readFrom_enc1 hrow

theorem readFrom_two (hrow : ∀ n, decodeFields eam g h i j k m n = some ins) :
    ReadFrom eam [mkParcel g h i j k, m] ins := by
  rintro x y _ _ _ _ ⟨⟩
  rw [decode_mkParcel, hrow]

theorem readFrom_encJkm (hrow : ∀ n, decodeFields eam g h i j k m n = some ins) :
    ReadFrom eam (encJkm g h i (joinJkm j k m)) ins := by
  rw [encJkm_joinJkm]
  exact readFrom_two hrow

theorem readFrom_encAddr24 {flag : BitVec 1} (hflag : iFlag i = flag.getLsbD 0)
    (hrow : ∀ n, decodeFields eam g h i j k m n = some ins) :
    ReadFrom eam (encAddr24 g h flag (joinAddr24 i j k m)) ins := by
  rw [encAddr24_joinAddr24 _ _ _ _ _ hflag]
  exact readFrom_two hrow

theorem readFrom_encNm (hrow : decodeFields eam g h i 0 0 m n = some ins) :
    ReadFrom eam (encNm g h i (joinNm m n)) ins := by
  rw [encNm_joinNm]
  rintro x y _ _ _ _ ⟨⟩
  rw [decode_mkParcel, hrow]

theorem eam_of_xOnly (hx : ins.modes = .xOnly) (hm : ins.inMode eam = true) : eam = false := by
  simpa [Instr.inMode, hx] using hm

theorem eam_of_yOnly (hy : ins.modes = .yOnly) (hm : ins.inMode eam = true) : eam = true := by
  simpa [Instr.inMode, hy] using hm

/-- A format flag that is 0. -/
theorem not_iFlag (hflag : iFlag i = (0 : BitVec 1).getLsbD 0) : ¬ iFlag i = true := Bool.eq_false_iff.mp hflag

end

/-- One case for each layout, and one for each row whose operands are conditioned (R125, R127, R128, R131). -/
theorem readFrom_encode {eam : Bool} (ins : Instr) (hwf : ins.wf = true) (hmode : ins.inMode eam = true) :
    ReadFrom eam (encode ins) ins := by
  cases ins with
  | aImm24 h a =>
    obtain rfl := eam_of_xOnly rfl hmode
    obtain ⟨i, j, k, m, hflag, rfl⟩ := exists_joinAddr24 1 a
    exact readFrom_encAddr24 hflag fun _ => if_pos hflag
  | jExp a | rExp a | jaz a | jan a | jap a | jam a | jsz a | jsn a | jsp a | jsm a =>
    obtain ⟨i, j, k, m, hflag, rfl⟩ := exists_joinAddr24 0 a
    exact readFrom_encAddr24 hflag fun _ => if_neg (not_iFlag hflag)
  | aImm22 i d | aImm22c i d | sImm22 i d | sImm22c i d | ldAX h i d | stAX h i d | ldSX h i d | stSX h i d =>
    obtain rfl := eam_of_xOnly rfl hmode
    obtain ⟨j, k, m, rfl⟩ := exists_joinJkm d
    exact readFrom_encJkm fun _ => rfl
  | aImm32 i d | aImm32c i d | sImm32 i d | sImm32c i d | ldAY h i d | stAY h i d | ldSY h i d | stSY h i d =>
    obtain rfl := eam_of_yOnly rfl hmode
    obtain ⟨m, n, rfl⟩ := exists_joinNm d
    exact readFrom_encNm rfl
  | aImm6 i d | sMaskr i d | sMaskl i d | aFromB i d | bFromA i d | sFromT i d | tFromS i d | ldBBlk i d | stBBlk i d
  | ldTBlk i d | stTBlk i d | s0Shl i d | s0Shr i d | sShl i d | sShr i d | jB d =>
    obtain ⟨j, k, rfl⟩ := exists_joinJk d
    exact readFrom_encJk fun _ _ => rfl
  | smTs d | smClr d | smSet d =>
    obtain ⟨j, k, rfl⟩ := exists_joinJk d
    exact readFrom_encJk fun _ _ => if_pos ((joinJk_lt_32 j k).mp (of_decide_eq_true hwf))
  | chCa j k => exact readFrom_enc1 fun _ _ => if_neg ((wf_chCa j k).mp hwf)
  | aFromCa i j | aFromCe i j =>
    have hj : ¬ j = 0 := bne_iff_ne.mp hwf
    exact readFrom_enc1 fun _ _ => if_neg hj
  | vFiterSv i j k =>
    obtain rfl := eam_of_xOnly rfl hmode
    exact readFrom_enc1 fun _ _ => rfl
  | vImul32 i j k =>
    obtain rfl := eam_of_yOnly rfl hmode
    exact readFrom_enc1 fun _ _ => rfl
  | _ => exact readFrom_enc1 fun _ _ => rfl

/-! ## From parcels to their instruction and back -/

/-- What `o` decodes to, if anything, is a well-formed instruction of the mode with exactly the parcels `ps`. -/
def ReadsBack (eam : Bool) (ps : List Parcel) (o : Option Instr) : Prop :=
  ∀ ins, o = some ins → ins.wf = true ∧ ins.inMode eam = true ∧ encode ins = ps

/-- The eight values of an octal digit of the first parcel. -/
theorem digitCases {P : BitVec 3 → Prop} (d0 : P 0) (d1 : P 1) (d2 : P 2) (d3 : P 3) (d4 : P 4) (d5 : P 5) (d6 : P 6)
    (d7 : P 7) (d : BitVec 3) : P d := by
  rcases bitVec3_cases d with rfl | rfl | rfl | rfl | rfl | rfl | rfl | rfl <;> assumption

section
variable {eam : Bool} {ps : List Parcel} {ins : Instr}

theorem readsBack_none : ReadsBack eam ps none := nofun

theorem readsBack_some (hwf : ins.wf = true) (hmode : ins.inMode eam = true) (henc : encode ins = ps) :
    ReadsBack eam ps (some ins) := by
  rintro _ ⟨⟩
  exact ⟨hwf, hmode, henc⟩

/-- A row that puts a condition on its fields. -/
theorem readsBack_if {c : Prop} [Decidable c] (h : c → ReadsBack eam ps (some ins)) :
    ReadsBack eam ps (if c then some ins else none) := by
  split
  next hc => exact h hc
  next => exact readsBack_none

/-- A row that leaves out some values of its fields. -/
theorem readsBack_unless {c : Prop} [Decidable c] (h : ¬ c → ReadsBack eam ps (some ins)) :
    ReadsBack eam ps (if c then none else some ins) := by
  split
  next => exact readsBack_none
  next hc => exact h hc

end

section
variable (eam : Bool) (h i j k : BitVec 3) (m n : Parcel)

theorem decode001_readsBack : ReadsBack eam [mkParcel 0 1 i j k] (decode001 i j k) := by
  cases i using digitCases with
  | d0 =>
    show ReadsBack _ _ (if j = 0 ∧ k = 0 then some .pass else some (.chCa j k))
    split
    next hjk =>
      obtain ⟨rfl, rfl⟩ := hjk
      exact readsBack_some rfl rfl rfl
    next hjk => exact readsBack_some ((wf_chCa j k).mpr hjk) rfl rfl
  | d1 => exact readsBack_some rfl rfl rfl
  | d2 =>
    cases k using digitCases with
    | d0 | d1 => exact readsBack_some rfl rfl rfl
    | _ => exact readsBack_none
  | d3 =>
    cases k using digitCases with
    | d0 => exact readsBack_some rfl rfl rfl
    | _ => exact readsBack_none
  | d4 =>
    cases k using digitCases with
    | d0 | d1 | d3 | d4 => exact readsBack_some rfl rfl rfl
    | d2 | d5 | d6 | d7 => exact readsBack_if (by rintro rfl; exact readsBack_some rfl rfl rfl)
  | _ => exact readsBack_none

theorem decode002_readsBack : ReadsBack eam [mkParcel 0 2 i j k] (decode002 i j k) := by
  unfold decode002
  split
  next hj =>
    subst hj
    cases i using digitCases with
    | d0 => exact readsBack_some rfl rfl rfl
    | d1 | d2 | d3 | d7 =>
      cases k using digitCases with
      | d0 => exact readsBack_some rfl rfl rfl
      | _ => exact readsBack_none
    | d4 =>
      cases k using digitCases with
      | d0 | d4 => exact readsBack_some rfl rfl rfl
      | _ => exact readsBack_none
    | d5 =>
      cases k using digitCases with
      | d0 | d6 => exact readsBack_some rfl rfl rfl
      | _ => exact readsBack_none
    | d6 =>
      cases k using digitCases with
      | d0 | d4 | d6 => exact readsBack_some rfl rfl rfl
      | _ => exact readsBack_none
  next => exact readsBack_none

theorem decode003_readsBack : ReadsBack eam [mkParcel 0 3 i j k] (decode003 i j k) := by
  cases i using digitCases with
  | d0 => exact readsBack_if (by rintro rfl; exact readsBack_some rfl rfl rfl)
  | d4 | d6 | d7 =>
    exact readsBack_if fun hj =>
      readsBack_some (decide_eq_true ((joinJk_lt_32 j k).mpr hj)) rfl (encJk_joinJk _ _ _ j k)
  | _ => exact readsBack_none

theorem decode071_readsBack : ReadsBack eam [mkParcel 7 1 i j k] (decode071 i j k) := by
  cases j using digitCases with
  | d0 | d1 | d2 => exact readsBack_some rfl rfl rfl
  | _ => exact readsBack_if (by rintro rfl; exact readsBack_some rfl rfl rfl)

theorem decode175_readsBack : ReadsBack eam [mkParcel 15 5 i j k] (decode175 i j k) := by
  cases k using digitCases with
  | d0 | d1 | d2 | d3 => exact readsBack_if (by rintro rfl; exact readsBack_some rfl rfl rfl)
  | _ => exact readsBack_some rfl rfl rfl

/-- The rows with one layout in each mode: in Y-mode j and k are read, and must be 0 (R125). -/
theorem byMode_readsBack {g : BitVec 4} {x : BitVec 22 → Instr} {y : BitVec 32 → Instr}
    (hx : ∀ d, ReadsBack false (encJkm g h i d) (some (x d)))
    (hy : ∀ d, ReadsBack true (encNm g h i d) (some (y d))) :
    ReadsBack eam ([mkParcel g h i j k, m, n].take (if eam then 3 else 2)) (byMode eam j k m n x y) := by
  cases eam with
  | false =>
    have hrow := hx (joinJkm j k m)
    rwa [encJkm_joinJkm] at hrow
  | true =>
    refine readsBack_if ?_
    rintro ⟨rfl, rfl⟩
    have hrow := hy (joinNm m n)
    rwa [encNm_joinNm] at hrow

theorem decodeG0_readsBack :
    ReadsBack eam ([mkParcel 0 h i j k, m, n].take (fieldsLength eam 0 h)) (decodeG0 h i j k m) := by
  cases h using digitCases with
  | d0 | d4 => exact readsBack_if (by rintro ⟨rfl, rfl, rfl⟩; exact readsBack_some rfl rfl rfl)
  | d1 => exact decode001_readsBack eam i j k
  | d2 => exact decode002_readsBack eam i j k
  | d3 => exact decode003_readsBack eam i j k
  | d5 => exact readsBack_if (by rintro rfl; exact readsBack_some rfl rfl (encJk_joinJk _ _ _ j k))
  | d6 | d7 => exact readsBack_unless fun hflag =>
    readsBack_some rfl rfl (encAddr24_joinAddr24 _ _ j k m (Bool.eq_false_iff.mpr hflag))

theorem decodeG1_readsBack : ReadsBack eam [mkParcel 1 h i j k, m] (decodeG1 eam h i j k m) := by
  unfold decodeG1
  split
  next hflag =>
    cases eam with
    | true => exact readsBack_none
    | false => exact readsBack_some rfl rfl (encAddr24_joinAddr24 _ _ j k m hflag)
  next hflag =>
    have henc (h : BitVec 3) := encAddr24_joinAddr24 1 h j k m (flag := 0) (Bool.eq_false_iff.mpr hflag)
    cases h using digitCases with
    | _ => exact readsBack_some rfl rfl (henc _)

theorem decodeG2_readsBack :
    ReadsBack eam ([mkParcel 2 h i j k, m, n].take (fieldsLength eam 2 h)) (decodeG2 eam h i j k m n) := by
  cases h using digitCases with
  | d0 | d1 =>
    exact byMode_readsBack eam _ i j k m n (fun _ => readsBack_some rfl rfl rfl) fun _ => readsBack_some rfl rfl rfl
  | d2 | d4 | d5 => exact readsBack_some rfl rfl (encJk_joinJk _ _ _ j k)
  | d3 =>
    cases k using digitCases with
    | d0 => exact readsBack_some rfl rfl rfl
    | d1 => exact readsBack_if (by rintro rfl; exact readsBack_some rfl rfl rfl)
    | _ => exact readsBack_none
  | d6 =>
    cases k using digitCases with
    | d0 | d1 | d7 => exact readsBack_some rfl rfl rfl
    | _ => exact readsBack_none
  | d7 =>
    cases k using digitCases with
    | d0 | d7 => exact readsBack_some rfl rfl rfl
    | _ => exact readsBack_none

theorem decodeG3_readsBack : ReadsBack eam [mkParcel 3 h i j k] (decodeG3 h i j k) := by
  cases h using digitCases with
  | d0 | d1 | d2 => exact readsBack_some rfl rfl rfl
  | d3 =>
    cases k using digitCases with
    | d0 =>
      show ReadsBack _ _ (if j = 0 then some (.aFromCi i) else some (.aFromCa i j))
      split
      next hj => exact readsBack_some rfl rfl (by rw [hj]; rfl)
      next hj => exact readsBack_some (bne_iff_ne.mpr hj) rfl rfl
    | d1 => exact readsBack_unless fun hj => readsBack_some (bne_iff_ne.mpr hj) rfl rfl
    | _ => exact readsBack_none
  | d4 | d5 | d6 | d7 => exact readsBack_some rfl rfl (encJk_joinJk _ _ _ j k)

theorem decodeG4_readsBack :
    ReadsBack eam ([mkParcel 4 h i j k, m, n].take (fieldsLength eam 4 h)) (decodeG4 eam h i j k m n) := by
  cases h using digitCases with
  | d0 | d1 =>
    exact byMode_readsBack eam _ i j k m n (fun _ => readsBack_some rfl rfl rfl) fun _ => readsBack_some rfl rfl rfl
  | d2 | d3 => exact readsBack_some rfl rfl (encJk_joinJk _ _ _ j k)
  | d4 | d5 | d6 | d7 => exact readsBack_some rfl rfl rfl

theorem decodeG5_readsBack : ReadsBack eam [mkParcel 5 h i j k] (decodeG5 h i j k) := by
  cases h using digitCases with
  | d0 | d1 | d6 | d7 => exact readsBack_some rfl rfl rfl
  | d2 | d3 | d4 | d5 => exact readsBack_some rfl rfl (encJk_joinJk _ _ _ j k)

theorem decodeG6_readsBack : ReadsBack eam [mkParcel 6 h i j k] (decodeG6 h i j k) := by
  cases h using digitCases with
  | _ => exact readsBack_some rfl rfl rfl

theorem decodeG7_readsBack : ReadsBack eam [mkParcel 7 h i j k] (decodeG7 h i j k) := by
  cases h using digitCases with
  | d0 => exact readsBack_if (by rintro rfl; exact readsBack_some rfl rfl rfl)
  | d1 => exact decode071_readsBack eam i j k
  | d2 =>
    cases k using digitCases with
    | d0 | d2 => exact readsBack_if (by rintro rfl; exact readsBack_some rfl rfl rfl)
    | d3 => exact readsBack_some rfl rfl rfl
    | _ => exact readsBack_none
  | d3 =>
    cases k using digitCases with
    | d0 | d1 | d2 => exact readsBack_if (by rintro rfl; exact readsBack_some rfl rfl rfl)
    | d3 => exact readsBack_some rfl rfl rfl
    | _ => exact readsBack_none
  | d4 | d5 => exact readsBack_some rfl rfl (encJk_joinJk _ _ _ j k)
  | d6 | d7 => exact readsBack_some rfl rfl rfl

theorem decodeG12_readsBack : ReadsBack eam [mkParcel 12 h i j k] (decodeG12 h i j k) := by
  cases h using digitCases with
  | _ => exact readsBack_some rfl rfl rfl

theorem decodeG13_readsBack : ReadsBack eam [mkParcel 13 h i j k] (decodeG13 h i j k) := by
  cases h using digitCases with
  | _ => exact readsBack_some rfl rfl rfl

/-- 166 is one instruction in each mode (R127). -/
theorem decodeG14_readsBack : ReadsBack eam [mkParcel 14 h i j k] (decodeG14 eam h i j k) := by
  cases h using digitCases with
  | d6 => cases eam with
    | false | true => exact readsBack_some rfl rfl rfl
  | _ => exact readsBack_some rfl rfl rfl

theorem decodeG15_readsBack : ReadsBack eam [mkParcel 15 h i j k] (decodeG15 h i j k) := by
  cases h using digitCases with
  | d0 | d1 | d2 | d3 => exact readsBack_some rfl rfl rfl
  | d4 =>
    cases k using digitCases with
    | d0 | d1 | d2 => exact readsBack_some rfl rfl rfl
    | _ => exact readsBack_none
  | d5 => exact decode175_readsBack eam i j k
  | d6 =>
    cases j using digitCases with
    | d0 | d1 => exact readsBack_some rfl rfl rfl
    | _ => exact readsBack_none
  | d7 =>
    cases i using digitCases with
    | d0 | d1 => exact readsBack_some rfl rfl rfl
    | _ => exact readsBack_none

theorem decodeFields_readsBack (g : BitVec 4) :
    ReadsBack eam ([mkParcel g h i j k, m, n].take (fieldsLength eam g h)) (decodeFields eam g h i j k m n) := by
  rcases bitVec4_cases g with
    rfl | rfl | rfl | rfl | rfl | rfl | rfl | rfl | rfl | rfl | rfl | rfl | rfl | rfl | rfl | rfl
  · exact decodeG0_readsBack eam h i j k m n
  · exact decodeG1_readsBack eam h i j k m
  · exact decodeG2_readsBack eam h i j k m n
  · exact decodeG3_readsBack eam h i j k
  · exact decodeG4_readsBack eam h i j k m n
  · exact decodeG5_readsBack eam h i j k
  · exact decodeG6_readsBack eam h i j k
  · exact decodeG7_readsBack eam h i j k
  · exact byMode_readsBack eam h i j k m n (fun _ => readsBack_some rfl rfl rfl) fun _ => readsBack_some rfl rfl rfl
  · exact byMode_readsBack eam h i j k m n (fun _ => readsBack_some rfl rfl rfl) fun _ => readsBack_some rfl rfl rfl
  · exact byMode_readsBack eam h i j k m n (fun _ => readsBack_some rfl rfl rfl) fun _ => readsBack_some rfl rfl rfl
  · exact byMode_readsBack eam h i j k m n (fun _ => readsBack_some rfl rfl rfl) fun _ => readsBack_some rfl rfl rfl
  · exact decodeG12_readsBack eam h i j k
  · exact decodeG13_readsBack eam h i j k
  · exact decodeG14_readsBack eam h i j k
  · exact decodeG15_readsBack eam h i j k

end

/-! ## The statements -/

/-- Settles O2: every layout reads back the fields it was put together from. -/
theorem decodeUndoesEncode : Obligations.DecodeUndoesEncode :=
  fun ins _ x y p0 p1 p2 rest hwf hmode => readFrom_encode ins hwf hmode x y p0 p1 p2 rest

/-- Settles O3: row by row of the opcode map, on the fields of the first parcel. -/
theorem encodeUndoesDecode : Obligations.EncodeUndoesDecode := by
  intro eam p0 p1 p2 ins hdec
  have hrow := decodeFields_readsBack eam (fieldH p0) (fieldI p0) (fieldJ p0) (fieldK p0) p1 p2 (fieldG p0) ins hdec
  rwa [mkParcel_fields, ← instrLength_eq] at hrow

/-- Settles O1: eight closed facts, each word taken apart into its fields. -/
theorem sampleWordsDecode : Obligations.SampleWordsDecode := by
  refine ⟨?_, ?_, ?_, ?_, ?_, ?_, ?_, ?_⟩
  all_goals decide

end Sys2Proof
end

section
/-! Register entry (40_register_entry.md R160 to R174): the constants as an A or an S register holds them, the bits of
the masks, and the floating-point constants. -/

namespace Sys2Proof.Machine

open Sys2Proof

/-! ## Constants at the width of the register -/

/-- The complement at 32 bits, cut to AW bits, is the complement at AW bits. -/
theorem amask_not_toNat (eam : Bool) (v : Addr) :
    (amask eam (~~~v)).toNat = 2 ^ addrWidth eam - 1 - (amask eam v).toNat := by
  rw [amask_toNat, amask_toNat, BitVec.toNat_not]
  have hv := v.isLt
  cases eam
  · change _ % 2 ^ 24 = 2 ^ 24 - 1 - _ % 2 ^ 24
    omega
  · change _ % 2 ^ 32 = 2 ^ 32 - 1 - _ % 2 ^ 32
    omega

section

variable {w : Nat} (c : BitVec w) {eam : Bool}

/-- A constant of at most AW bits enters an A register as it is. -/
theorem amask_setWidth_toNat (h : w ≤ addrWidth eam) : (amask eam (c.setWidth 32)).toNat = c.toNat := by
  have hc : c.toNat < 2 ^ addrWidth eam := c.isLt.trans_le (Nat.pow_le_pow_right two_pos h)
  rw [amask_toNat, BitVec.toNat_setWidth, mod_two_pow_mod_addrWidth, Nat.mod_eq_of_lt hc]

/-- R162, R164: complements in an A register. -/
theorem amask_not_setWidth_toNat (h : w ≤ addrWidth eam) :
    (amask eam (~~~c.setWidth 32)).toNat = 2 ^ addrWidth eam - 1 - c.toNat := by
  rw [amask_not_toNat, amask_setWidth_toNat c h]

/-- R168, R170: complements in an S register. -/
theorem not_setWidth_64_toNat (h : w ≤ 64) : (~~~c.setWidth 64 : Word).toNat = 2 ^ 64 - 1 - c.toNat := by
  rw [BitVec.toNat_not, BitVec.toNat_setWidth_of_le h]

end

/-! ## Masks (R171, R172) -/

section

variable {n : Nat} (hn : n ≤ 64) (b : Nat)

include hn

theorem getLsbD_onesRight : (onesRight n).getLsbD b = decide (b < n) := by
  rw [onesRight, BitVec.getLsbD_ofNat, Nat.testBit_two_pow_sub_one, ← Bool.decide_and]
  exact decide_eq_decide.mpr (by omega)

theorem getLsbD_onesLeft : (onesLeft n).getLsbD b = decide (64 - n ≤ b ∧ b < 64) := by
  rw [onesLeft, BitVec.getLsbD_ofNat, Nat.testBit_mul_two_pow, Nat.testBit_two_pow_sub_one, ← Bool.decide_and,
    ← Bool.decide_and]
  exact decide_eq_decide.mpr (by omega)

end

/-! ## The statement -/

/-- Settles O14: each instruction writes one register (`givesA_done`, `givesS_done`) with a value that fits AW or 64
bits, its complement, a mask, or one of five closed floating-point words. -/
theorem constantsEnterRegisters : Obligations.ConstantsEnterRegisters := by
  intro s i jkm exp nm jk enters
  refine ⟨fun hx => ?inX, fun hy => ?inY, ?imm6, ?maskr, ?maskl, ?fc06, ?fc04, ?fc1, ?fc2, ?fc4⟩
  case inX =>
    have hw : addrWidth s.cpu.m.eam = 24 := by rw [hx]; rfl
    have hcomp := amask_not_setWidth_toNat jkm (eam := s.cpu.m.eam) (by omega)
    rw [hw] at hcomp
    exact ⟨givesA_done s i _ 2 _ (amask_setWidth_toNat exp hw.ge),
      givesA_done s i _ 2 _ (amask_setWidth_toNat jkm (by omega)), givesA_done s i _ 2 _ hcomp,
      givesS_done s i _ 2 _ (BitVec.toNat_setWidth_of_le (by decide)),
      givesS_done s i _ 2 _ (not_setWidth_64_toNat jkm (by decide))⟩
  case inY =>
    have hw : addrWidth s.cpu.m.eam = 32 := by rw [hy]; rfl
    have hval := amask_setWidth_toNat nm hw.ge
    have hcomp := amask_not_setWidth_toNat nm hw.ge
    rw [BitVec.setWidth_eq] at hval hcomp
    rw [hw] at hcomp
    exact ⟨givesA_done s i _ 3 _ hval, givesA_done s i _ 3 _ hcomp,
      givesS_done s i _ 3 _ (BitVec.toNat_setWidth_of_le (by decide)),
      givesS_done s i _ 3 _ (not_setWidth_64_toNat nm (by decide))⟩
  case imm6 => exact givesA_done s i _ 1 _ (amask_setWidth_toNat jk (by cases s.cpu.m.eam <;> decide))
  case maskr => exact givesS_done s i _ 1 _ (getLsbD_onesRight (Nat.sub_le 64 _))
  case maskl => exact givesS_done s i _ 1 _ (getLsbD_onesLeft (by omega))
  case fc06 | fc04 | fc1 | fc2 | fc4 => exact givesS_done s i _ 1 _ (by decide)

end Sys2Proof.Machine
end

section
/-! User mode (10_state.md R50 to R55, 49_monitor_mode.md R470, 60_exceptions.md R540): what only monitor mode and the
exchange change, and that no instruction of user mode but the exits changes it. One lemma for each shape in which an
instruction ends. -/

namespace Sys2Proof.Machine

open Sys2Proof

/-! ## What monitor mode owns -/

/-- The registers and the machine's parts that privileged instructions change. -/
def State.monitorOwned (s : State) :
    (BitVec 8 × BitVec 4 × BitVec 32 × BitVec 32) × (Bool × Bool × Bool) × Word × List Channel × List Cpu :=
  ((s.cpu.xa, s.cpu.cln, s.cpu.ii, s.cpu.pc), (s.cpu.pciEnabled, s.cpu.pciRequest, s.cpu.ipiRequest), s.rtc,
    s.channels, s.others)

/-- Nothing that monitor mode owns is changed, and of the clusters at most the CPU's own. -/
structure Unreached (s t : State) : Prop where
  owned : t.monitorOwned = s.monitorOwned
  clusters : ∀ c, c ≠ s.cpu.cln → regGet t.clusters c = regGet s.clusters c

/-- An outcome that, if it is a next state, leaves alone what monitor mode owns. -/
def Spares (s : State) (o : Out) : Prop := ∀ t, o = .next t → Unreached s t

/-- A further change of other registers, of memory or of the count of draws. -/
theorem Unreached.trans_eq {s t u : State} (h : Unreached s t) (howned : u.monitorOwned = t.monitorOwned)
    (hclusters : u.clusters = t.clusters) : Unreached s u :=
  ⟨howned.trans h.owned, fun c hc => hclusters ▸ h.clusters c hc⟩

theorem Unreached.refl (s : State) : Unreached s s := ⟨rfl, fun _ _ => rfl⟩

variable {s : State}

theorem spares_next {t : State} (h : Unreached s t) : Spares s (.next t) :=
  fun _ e => Host.Outcome.next.inj e ▸ h

/-- An instruction that changes other registers of its CPU alone. -/
theorem spares_registers {t : State} (howned : t.monitorOwned = s.monitorOwned) (hclusters : t.clusters = s.clusters) :
    Spares s (.next t) := spares_next ((Unreached.refl s).trans_eq howned hclusters)

theorem spares_refused (r : Refusal) : Spares s (.refused r) := fun _ h => nomatch h

theorem spares_ite {a b : Out} {c : Prop} [Decidable c] (ha : Spares s a) (hb : Spares s b) :
    Spares s (if c then a else b) := by
  split
  · exact ha
  · exact hb

theorem spares_unless {r : Refusal} {o : Out} {c : Prop} [Decidable c] (h : Spares s o) :
    Spares s (if c then .refused r else o) := spares_ite (spares_refused r) h

theorem spares_orStop {α : Type} {r : Except Stop α} {k : α → Out} (h : ∀ x, r = .ok x → Spares s (k x)) :
    Spares s (orStop r k) := fun t ht =>
  have ⟨x, hx, hk⟩ := orStop_next.mp ht
  h x hx t hk

/-! ## Results, elements, shared registers -/

/-- A floating-point result written to registers that monitor mode does not own: an error adds FPS and FPE alone. -/
theorem spares_fpError {t : State} (b d : Bool) (n : Nat) (howned : t.monitorOwned = s.monitorOwned)
    (hclusters : t.clusters = s.clusters) : Spares s (((t.fpError b).drawnIf d n).done 1) := by
  refine spares_registers (Eq.trans ?_ howned) (Eq.trans ?_ hclusters) <;> cases b <;> cases d <;> rfl

theorem spares_scalarFp (i : BitVec 3) (r : Word × Bool) : Spares s (s.scalarFp i r) :=
  spares_fpError (t := s.writeS i r.1) r.2 false 0 rfl rfl

theorem spares_vectorOp (i : BitVec 3) (f : BitVec 6 → Word) : Spares s (s.vectorOp i f) :=
  spares_unless <| spares_registers rfl rfl

theorem spares_vectorFp (i : BitVec 3) (f : BitVec 6 → Word × Bool) : Spares s (s.vectorFp i f) :=
  spares_unless <|
    spares_fpError (t := (s.writeV i (s.vectorResult i fun e => (f e).1)).markVector) _ false 0 rfl rfl

theorem spares_vectorMul (i : BitVec 3) (a b : BitVec 6 → Word) : Spares s (s.vectorMul i a b) :=
  spares_unless <| spares_fpError _ _ _ rfl rfl

theorem spares_vImul32 (i j k : BitVec 3) : Spares s (execVImul32 i j k s) :=
  spares_unless <|
    spares_fpError (t := (s.writeV i (s.vectorResult i fun e =>
      imul32 (s.sjVal j) (s.velem k e) (s.drawAt e.toNat))).markVector) false
      (s.anyElem fun e => !imul32Exact (s.sjVal j) (s.velem k e)) s.cpu.vl.toNat rfl rfl

theorem spares_maskTest (test : Word → Bool) (j : BitVec 3) : Spares s (s.maskTest test j) :=
  spares_unless <| spares_registers rfl rfl

theorem spares_compressedIndex (test : Word → Bool) (i j : BitVec 3) : Spares s (s.compressedIndex test i j) := by
  unfold State.compressedIndex
  generalize s.testedMask test j = mask
  generalize s.compressed test j = indices
  exact spares_unless <| spares_unless <| spares_registers rfl rfl

theorem spares_withElem {k : BitVec 3} {f : BitVec 6 → Out} (h : ∀ x, Spares s (f x)) : Spares s (s.withElem k f) :=
  spares_unless (h _)

theorem spares_shared {k : Cluster → Out} (h : ∀ c, Spares s (k c)) : Spares s (s.shared k) := spares_unless (h _)

/-- R235: the cluster written is the CPU's own. -/
theorem unreached_writeCluster (c : Cluster) : Unreached s (s.writeCluster c) :=
  ⟨rfl, fun _ hx => regGet_regPut_ne _ _ _ _ hx⟩

theorem spares_writeCluster (c : Cluster) : Spares s ((s.writeCluster c).done 1) :=
  spares_next ((unreached_writeCluster c).trans_eq rfl rfl)

theorem spares_smTs (jk : BitVec 6) : Spares s (execSmTs jk s) :=
  spares_shared fun _ => spares_ite (spares_registers rfl rfl)
    (spares_next ((unreached_writeCluster _).trans_eq rfl rfl))

theorem spares_branchIf (taken : Bool) (target : PAddr) : Spares s (s.branchIf taken target) :=
  spares_ite (spares_registers rfl rfl) (spares_registers rfl rfl)

theorem spares_withChannel {ch : Addr} {k : Channel → Out} (h : ∀ c, Spares s (k c)) : Spares s (s.withChannel ch k) :=
  fun t ht =>
    have ⟨c, _, hk⟩ := withChannel_next.mp ht
    h c t hk

theorem spares_aFromCi (i : BitVec 3) : Spares s (execAFromCi i s) := by
  unfold execAFromCi
  cases s.requesting with
  | none => exact spares_registers rfl rfl
  | some c => exact spares_registers rfl rfl

/-- R470: a privileged instruction passes in user mode, whatever it would do in monitor mode. -/
theorem spares_monitorOnly (hm : s.cpu.m.mm = false) (o : Out) : Spares s (s.monitorOnly o) := fun t ht => by
  rcases monitorOnly_next.mp ht with ⟨h, -⟩ | ⟨-, rfl⟩
  · exact absurd h (hm ▸ Bool.false_ne_true)
  · exact (Unreached.refl s).trans_eq rfl rfl

/-! ## Operand references (20_memory.md R86) -/

/-- The errors of reads change the CPU's sticky bits, F.ME and the recorded data. -/
theorem Unreached.afterReads {t : State} (h : Unreached s t) (l : List ReadError) (n : Nat) :
    Unreached s (t.afterReads l n) := by
  refine h.trans_eq ?_ rfl
  simp only [State.monitorOwned, State.afterReads_cpu, State.afterReads_rtc, State.afterReads_channels,
    State.afterReads_others]
  rw [noteErrors_eq]

theorem Unreached.afterBlock {t : State} (h : Unreached s t) (out : Bool) (n : Nat) :
    Unreached s (t.afterBlock out n) := by
  cases out <;> exact h.trans_eq rfl rfl

/-- Remembering references changes nothing else. -/
theorem unreached_withRefs (s : State) (refs : List Ref) : Unreached s (s.withCpu { s.cpu with refs := refs }) :=
  (Unreached.refl s).trans_eq rfl rfl

theorem unreached_dataRead {t : State} {ea : Addr} {w : Word} (h : s.dataRead ea = .ok (w, t)) : Unreached s t := by
  rcases dataRead_ok h with ⟨-, -, rfl⟩ | ⟨refs, -, rfl⟩
  · exact (Unreached.refl s).trans_eq rfl rfl
  · exact (unreached_withRefs s refs).afterReads _ _

theorem unreached_dataWrite {t : State} {ea : Addr} {v : Word} (h : s.dataWrite ea v = .ok t) : Unreached s t := by
  rcases dataWrite_ok h with ⟨-, rfl⟩ | ⟨refs, rfl⟩ <;> exact (Unreached.refl s).trans_eq rfl rfl

theorem unreached_blockRead {t : State} {eas : List Addr} {l : List (Option Word)}
    (h : s.blockRead eas = .ok (l, t)) : Unreached s t := by
  obtain ⟨refs, out, n, errs, m, rfl⟩ := blockRead_ok h
  exact ((unreached_withRefs s refs).afterBlock out n).afterReads errs m

theorem unreached_blockWrite {t : State} {sc : Bool} {eas : List Addr} {vals : List Word}
    (h : s.blockWrite sc eas vals = .ok t) : Unreached s t := by
  obtain ⟨refs, ws, out, n, m, rfl⟩ := blockWrite_ok h
  have hwrites : Unreached s ((s.withCpu { s.cpu with refs := refs }).memWrites ws) := by
    rw [memWrites_frame]
    exact (Unreached.refl s).trans_eq rfl rfl
  exact (hwrites.afterBlock out n).trans_eq rfl rfl

/-! ## Instructions with operand references (42_memory_transfer.md) -/

theorem spares_withDisp22 {jkm : BitVec 22} {k : Addr → Out} (h : ∀ d, Spares s (k d)) :
    Spares s (withDisp22 jkm k) := fun t ht =>
  have ⟨_, hk⟩ := withDisp22_next.mp ht
  h _ t hk

theorem spares_withBlock {i : BitVec 3} {jk : BitVec 6} {k : Nat → Out} (h : ∀ n, Spares s (k n)) :
    Spares s (s.withBlock i jk k) := fun t ht =>
  have ⟨_, hk⟩ := withBlock_next.mp ht
  h _ t hk

theorem spares_loadA (i : BitVec 3) (ea : Addr) (n : Nat) : Spares s (loadA i ea n s) :=
  spares_orStop fun ⟨_, _⟩ h => spares_next ((unreached_dataRead h).trans_eq rfl rfl)

theorem spares_loadS (i : BitVec 3) (ea : Addr) (n : Nat) : Spares s (loadS i ea n s) :=
  spares_orStop fun ⟨_, _⟩ h => spares_next ((unreached_dataRead h).trans_eq rfl rfl)

theorem spares_storeA (i : BitVec 3) (ea : Addr) (n : Nat) : Spares s (storeA i ea n s) :=
  spares_orStop fun _ h => spares_next ((unreached_dataWrite h).trans_eq rfl rfl)

theorem spares_storeS (i : BitVec 3) (ea : Addr) (n : Nat) : Spares s (storeS i ea n s) :=
  spares_orStop fun _ h => spares_next ((unreached_dataWrite h).trans_eq rfl rfl)

/-- A block read into registers that monitor mode does not own. -/
theorem spares_blockRead (eas : List Addr) {k : List (Option Word) × State → State}
    (howned : ∀ r, (k r).monitorOwned = r.2.monitorOwned) (hclusters : ∀ r, (k r).clusters = r.2.clusters) :
    Spares s (orStop (s.blockRead eas) fun r => (k r).done 1) :=
  spares_orStop fun ⟨_, _⟩ h =>
    spares_next (((unreached_blockRead h).trans_eq (howned _) (hclusters _)).trans_eq rfl rfl)

theorem spares_blockWrite (sc : Bool) (eas : List Addr) (vals : List Word) :
    Spares s (orStop (s.blockWrite sc eas vals) fun t => t.done 1) :=
  spares_orStop fun _ h => spares_next ((unreached_blockWrite h).trans_eq rfl rfl)

/-- A load into B or T changes nothing that monitor mode owns. -/
theorem monitorOwned_load_b (t : State) (x : Vector Addr (2 ^ 6)) :
    (t.withCpu { t.cpu with b := x }).monitorOwned = t.monitorOwned := rfl

theorem monitorOwned_load_t (t : State) (x : Vector Word (2 ^ 6)) :
    (t.withCpu { t.cpu with t := x }).monitorOwned = t.monitorOwned := rfl

theorem spares_ldBBlk (i : BitVec 3) (jk : BitVec 6) : Spares s (execLdBBlk i jk s) :=
  spares_withBlock fun _ => spares_blockRead _ (fun _ => monitorOwned_load_b _ _) fun _ => State.withCpu_clusters _ _

theorem spares_ldTBlk (i : BitVec 3) (jk : BitVec 6) : Spares s (execLdTBlk i jk s) :=
  spares_withBlock fun _ => spares_blockRead _ (fun _ => monitorOwned_load_t _ _) fun _ => State.withCpu_clusters _ _

theorem spares_loadV (i : BitVec 3) (eas : List Addr) : Spares s (loadV i eas s) :=
  spares_unless <| spares_blockRead eas (fun _ => rfl) fun _ => rfl

theorem spares_storeV (sc : Bool) (j : BitVec 3) (eas : List Addr) : Spares s (storeV sc j eas s) :=
  spares_unless <| spares_orStop fun _ h => spares_next ((unreached_blockWrite h).trans_eq rfl rfl)

/-! ## Every instruction -/

/-- In user mode an instruction that is no exit leaves alone what monitor mode owns. -/
theorem exec_spares (i : Instr) (hm : s.cpu.m.mm = false) (hex : i ≠ .ex) (herr : i ≠ .err) : Spares s (exec i s) := by
  cases i with
  | ex => exact absurd rfl hex
  | err => exact absurd rfl herr
  | aImm24 | aImm22 | aImm22c | aImm32 | aImm32c | aImm6 | aFromS | aFromVl | aFromB | bFromA | aAdd | aSub | aMul
  | aPop | aParity | aLzc => exact spares_registers rfl rfl
  | sImm22 | sImm22c | sImm32 | sImm32c | sMaskr | sMaskl | sFc06 | sFc04 | sFc1 | sFc2 | sFc4 | sFromA | sFromASx
  | sFromAFlt | sFromRtc | sFromVm | sFromSr | sFromT | tFromS | vmFromS | sAdd | sSub | sAnd | sAndn | sXor | sXnor
  | sMerge | sOr | s0Shl | s0Shr | sShl | sShr | sDshl | sDshr => exact spares_registers rfl rfl
  | dcbw | ecbw | dsbo | esbo | cmr | pass | jExp | rExp | dbm | ebm | efi | dfi | eri | dri =>
    exact spares_registers rfl rfl
  | sFadd | sFsub | sFmulH | sFmulR | sFiter | sFrecip => exact spares_scalarFp _ _
  | sFmul => exact spares_fpError _ _ _ rfl rfl
  | vAddSv | vAddVv | vSubSv | vSubVv | vAndSv | vAndVv | vOrSv | vOrVv | vXorSv | vXorVv | vMergeSv | vMergeVv | vShl
  | vShr | vPop | vParity => exact spares_vectorOp _ _
  | vDshl | vDshr => exact spares_unless <| spares_vectorOp _ _
  | vFaddSv | vFaddVv | vFsubSv | vFsubVv | vFmulHSv | vFmulHVv | vFmulRSv | vFmulRVv | vFrecip | vFiterSv | vFiterVv =>
    exact spares_vectorFp _ _
  | vFmulSv | vFmulVv => exact spares_vectorMul _ _ _
  | vImul32 => exact spares_vImul32 _ _ _
  | vmTestZ | vmTestN | vmTestP | vmTestM => exact spares_maskTest _ _
  | vmCidxZ | vmCidxN | vmCidxP | vmCidxM => exact spares_compressedIndex _ _ _
  | aFromSb | sFromSm | sFromSt =>
    unfold exec
    refine spares_shared fun _ => ?_
    exact spares_registers rfl rfl
  | sbFromA | smFromS | stFromS | smClr | smSet => exact spares_shared fun _ => spares_writeCluster _
  | smTs => exact spares_smTs _
  | sFromVelem | velemFromS =>
    unfold exec
    refine spares_withElem fun _ => ?_
    exact spares_registers rfl rfl
  | vlFromA | jB => exact spares_unless <| spares_registers rfl rfl
  | jaz | jan | jap | jam | jsz | jsn | jsp | jsm => exact spares_branchIf _ _
  | ldAX => exact spares_withDisp22 fun _ => spares_loadA _ _ _
  | ldAY => exact spares_loadA _ _ _
  | stAX => exact spares_withDisp22 fun _ => spares_storeA _ _ _
  | stAY => exact spares_storeA _ _ _
  | ldSX => exact spares_withDisp22 fun _ => spares_loadS _ _ _
  | ldSY => exact spares_loadS _ _ _
  | stSX => exact spares_withDisp22 fun _ => spares_storeS _ _ _
  | stSY => exact spares_storeS _ _ _
  | ldBBlk => exact spares_ldBBlk _ _
  | ldTBlk => exact spares_ldTBlk _ _
  | stBBlk | stTBlk => exact spares_withBlock fun _ => spares_blockWrite _ _ _
  | ldV => exact spares_loadV _ _
  | ldVGather => exact spares_unless <| spares_loadV _ _
  | stV | stVScatter => exact spares_storeV _ _ _
  | chCa | chCl | chCi | chMc | xaFromA | rtcLoad | pciLoad | cci | eci | sipi | dci | cipi | clnLoad =>
    exact spares_monitorOnly hm _
  | aFromCi => exact spares_aFromCi _
  | aFromCa | aFromCe => exact spares_withChannel fun _ => spares_registers rfl rfl

/-- Settles O10: the parts of `State.monitorOwned`, one by one. -/
theorem userModeIsConfined : Obligations.UserModeIsConfined := by
  intro i s t hm hex herr h
  obtain ⟨howned, hclusters⟩ := exec_spares i hm hex herr t h
  simp only [State.monitorOwned, Prod.mk.injEq] at howned
  obtain ⟨⟨hxa, hcln, hii, hpc⟩, ⟨hen, hreq, hipi⟩, hrtc, hch, hothers⟩ := howned
  exact ⟨hxa, hcln, hii, hpc, hen, hreq, hipi, hrtc, hch, hothers, hclusters⟩

end Sys2Proof.Machine
end

section
/-! Transfers among the registers (41_interregister_transfer.md R200 to R232): copies, an A register as a number in an S
register, single vector elements, VL, and the semaphores (R240 to R242). -/

namespace Sys2Proof.Machine

open Sys2Proof

/-! ## Copies (R200 to R203, R216, R220, R221, R231) -/

/-- An A or B register read and written again: what is stored modulo 2^AW. -/
theorem amask_amask_toNat (eam : Bool) (v : Addr) : (amask eam (amask eam v)).toNat = v.toNat % 2 ^ addrWidth eam := by
  rw [amask_amask, amask_toNat]

/-- The low AW bits of a word (R200). -/
theorem amask_setWidth_word_toNat (eam : Bool) (v : Word) :
    (amask eam (v.setWidth 32)).toNat = v.toNat % 2 ^ addrWidth eam := by
  rw [amask_toNat, BitVec.toNat_setWidth, mod_two_pow_mod_addrWidth]

/-- Settles O15: each transfer writes one register, an A or B register through the mask. -/
theorem registerTransfers : Obligations.RegisterTransfers := by
  intro s i j jk
  refine ⟨givesA_done s i _ 1 _ (amask_setWidth_word_toNat _ _), givesA_done s i _ 1 _ ?vl,
    givesA_done s i _ 1 _ (amask_amask_toNat _ _), givesB_done s jk _ 1 _ (amask_amask_toNat _ _),
    givesS_done s i _ 1 _ rfl, givesT_done s jk _ 1 _ rfl, givesS_done s i _ 1 _ rfl,
    (s.writeVm (s.sjVal j)).advance 1, rfl, rfl, moved_advance _ _ _ rfl, rfl, fun _ => rfl⟩
  case vl => exact amask_setWidth_toNat s.cpu.vl (by cases s.cpu.m.eam <;> decide)

/-! ## An A register as a number (R210 to R212) -/

/-- The top bit of a number that may have one more. -/
theorem testBit_top {c n : Nat} (h : c < 2 ^ (n + 1)) : c.testBit n = decide (2 ^ n ≤ c) := by
  rw [pow_succ] at h
  rw [Nat.testBit_eq_decide_div_mod_eq]
  refine decide_eq_decide.mpr ⟨fun hbit => ?_, fun hle => ?_⟩
  · by_contra hlt
    rw [Nat.div_eq_of_lt (by omega)] at hbit
    omega
  · have hdiv : c / 2 ^ n = 1 := Nat.div_eq_of_lt_le (by omega) (by omega)
    rw [hdiv]

/-- The special value of the k field too is below 2^AW. -/
theorem akVal_lt (s : State) (k : BitVec 3) : (s.akVal k).toNat < 2 ^ addrWidth s.cpu.m.eam := by
  by_cases hk : k = 0
  · subst hk
    exact Nat.one_lt_two_pow (by cases s.cpu.m.eam <;> decide)
  · rw [s.akVal_of_ne hk]
    exact amask_lt _ _

/-- A number of AW bits as a two's complement integer. -/
def addrInt (eam : Bool) (v : Addr) : Int :=
  if 2 * v.toNat < 2 ^ addrWidth eam then v.toNat else (v.toNat : Int) - (2 ^ addrWidth eam : Nat)

section
variable {eam : Bool} {v : Addr} (hv : v.toNat < 2 ^ addrWidth eam)
include hv

theorem signExtendA_toInt : (signExtendA eam v).toInt = addrInt eam v := by
  cases eam with
  | true =>
    rw [signExtendA, if_pos rfl, BitVec.toInt_signExtend_of_le (by decide), BitVec.toInt_eq_toNat_cond]
    rfl
  | false =>
    have hlow : (v.setWidth 24).toNat = v.toNat := by rw [BitVec.toNat_setWidth]; exact Nat.mod_eq_of_lt hv
    rw [signExtendA, if_neg Bool.false_ne_true, BitVec.toInt_signExtend_of_le (by decide), BitVec.toInt_eq_toNat_cond,
      hlow]
    rfl

/-- The sign is bit AW - 1 (R13). -/
theorem asign_eq_neg : asign eam v = decide (addrInt eam v < 0) := by
  have hsign : asign eam v = decide (2 ^ (addrWidth eam - 1) ≤ v.toNat) := by
    cases eam <;> exact testBit_top hv
  have hhalf : 2 * 2 ^ (addrWidth eam - 1) = 2 ^ addrWidth eam := by cases eam <;> rfl
  rw [hsign, addrInt]
  refine decide_eq_decide.mpr ?_
  split <;> omega

/-- The magnitude: the value, or its negative modulo 2^AW. -/
theorem magnitude_toNat :
    (if asign eam v then amask eam (-v) else v).toNat = (addrInt eam v).natAbs := by
  rw [asign_eq_neg hv, addrInt]
  by_cases h : 2 * v.toNat < 2 ^ addrWidth eam
  · rw [if_pos h, if_neg (by simp)]
    simp
  · have hneg : (v.toNat : Int) - (2 ^ addrWidth eam : Nat) < 0 := by omega
    have hpow : 2 ^ addrWidth eam ≤ 2 ^ 32 := Nat.pow_le_pow_right two_pos (addrWidth_le eam)
    have hpos : 0 < 2 ^ addrWidth eam := by positivity
    rw [if_neg h, if_pos (by simpa using hneg), amask_toNat, BitVec.toNat_neg, mod_two_pow_mod_addrWidth]
    have hdvd : 2 ^ 32 % 2 ^ addrWidth eam = 0 := by cases eam <;> rfl
    have hmod : (2 ^ 32 - v.toNat) % 2 ^ addrWidth eam = 2 ^ addrWidth eam - v.toNat := by
      have hsplit : 2 ^ 32 - v.toNat = 2 ^ addrWidth eam - v.toNat + (2 ^ 32 - 2 ^ addrWidth eam) := by omega
      have hrest : (2 ^ 32 - 2 ^ addrWidth eam) % 2 ^ addrWidth eam = 0 := by cases eam <;> rfl
      rw [hsplit, Nat.add_mod, hrest, Nat.add_zero, Nat.mod_mod, Nat.mod_eq_of_lt (by omega)]
    rw [hmod]
    omega

/-- R212: sign and magnitude under the exponent 40060 octal. -/
theorem floatOfA_fields : fpSign (floatOfA eam v) = decide (addrInt eam v < 0) ∧ fpExp (floatOfA eam v) = 0o40060 ∧
    fpCoef (floatOfA eam v) = (addrInt eam v).natAbs := by
  have hpack : floatOfA eam v =
      fpPack (asign eam v) 0o40060 ((if asign eam v then amask eam (-v) else v).setWidth 48) := rfl
  rw [hpack, fpSign_fpPack, fpExp_fpPack, fpCoef_fpPack, BitVec.toNat_setWidth_of_le (by decide), magnitude_toNat hv]
  exact ⟨asign_eq_neg hv, rfl, rfl⟩

end

/-- Settles O16: (Ak) is below 2^AW, so that `addrInt` is its value as a two's complement number. -/
theorem addressEntersS : Obligations.AddressEntersS := by
  intro s i k
  have hk := akVal_lt s k
  exact ⟨givesS_done s i _ 1 _ (BitVec.toNat_setWidth_of_le (by decide)),
    givesS_done s i _ 1 _ (signExtendA_toInt hk), givesS_done s i _ 1 _ (floatOfA_fields hk)⟩

/-! ## Semaphores (R240 to R242) -/

/-- The bit that holds a semaphore. -/
theorem smBit_eq_twoPow {n : BitVec 6} (hn : n.toNat < 32) : smBit n = BitVec.twoPow 32 (31 - n.toNat) := by
  revert n
  decide

section
variable (c : Cluster) {n jk : BitVec 6} (hn : n.toNat < 32) (hjk : jk.toNat < 32)
include hn hjk

theorem smIsSet_smSet : (c.smSet jk).smIsSet n = (decide (n = jk) || c.smIsSet n) := by
  rw [smIsSet_eq_getLsbD _ hn, smIsSet_eq_getLsbD _ hn, Cluster.smSet, smBit_eq_twoPow hjk, BitVec.getLsbD_or,
    BitVec.getLsbD_twoPow, Bool.or_comm, ← Bool.decide_and]
  exact congrArg (· || _) (decide_eq_decide.mpr (by rw [← BitVec.toNat_inj]; omega))

theorem smIsSet_smClear : (c.smClear jk).smIsSet n = (!decide (n = jk) && c.smIsSet n) := by
  rw [smIsSet_eq_getLsbD _ hn, smIsSet_eq_getLsbD _ hn, Cluster.smClear, smBit_eq_twoPow hjk, BitVec.getLsbD_and,
    BitVec.getLsbD_not, BitVec.getLsbD_twoPow, Bool.and_comm, decide_eq_true (by omega : 31 - n.toNat < 32),
    Bool.true_and, ← Bool.decide_and]
  exact congrArg (!· && _) (decide_eq_decide.mpr (by rw [← BitVec.toNat_inj]; omega))

end

section
variable {s : State} (h : s.cpu.cln ≠ 0) (jk : BitVec 6)
include h

theorem exec_smTs_of_set (hset : s.cluster.smIsSet jk = true) : exec (.smTs jk) s = .next (s.hold (some jk)) := by
  rw [exec_smTs, execSmTs, shared_of_cluster s h, if_pos hset]

theorem exec_smTs_of_clear (hclear : s.cluster.smIsSet jk = false) :
    exec (.smTs jk) s = .next (((s.writeCluster (s.cluster.smSet jk)).hold none).advance 1) := by
  rw [exec_smTs, execSmTs, shared_of_cluster s h, if_neg (by rw [hclear]; decide)]
  rfl

end

/-- Settles O19: the semaphore's own bit is written, and its bit alone. -/
theorem semaphores : Obligations.Semaphores := by
  intro s jk hcln hjk
  have hset := smIsSet_smSet s.cluster hjk hjk
  have hclear := smIsSet_smClear s.cluster hjk hjk
  rw [decide_eq_true rfl] at hset hclear
  have hsets : ∀ n : BitVec 6, n.toNat < 32 → n ≠ jk → (s.cluster.smSet jk).smIsSet n = s.cluster.smIsSet n :=
    fun n hn hne => by rw [smIsSet_smSet _ hn hjk, decide_eq_false hne, Bool.false_or]
  have hclears : ∀ n : BitVec 6, n.toNat < 32 → n ≠ jk → (s.cluster.smClear jk).smIsSet n = s.cluster.smIsSet n :=
    fun n hn hne => by rw [smIsSet_smClear _ hn hjk, decide_eq_false hne, Bool.not_false, Bool.true_and]
  refine ⟨fun hc => ?testAndSet, fun hc => exec_smTs_of_set hcln jk hc, ?clear, ?set⟩
  case testAndSet =>
    obtain ⟨hd, hx, -, -, -⟩ := writeCluster_advance s (s.cluster.smSet jk)
    exact ⟨_, _, exec_smTs_of_clear hcln jk hc, hd.symm, hset, hsets, rfl, hx, moved_advance _ _ _ rfl, rfl,
      fun _ => rfl⟩
  case clear =>
    rw [exec_smClr, execSmClr, shared_of_cluster s hcln]
    obtain ⟨hd, hx, hp, ht, hb⟩ := writeCluster_advance s (s.cluster.smClear jk)
    exact ⟨_, _, rfl, hd.symm, hclear, hclears, rfl, hx, hp, ht, hb⟩
  case set =>
    rw [exec_smSet, execSmSet, shared_of_cluster s hcln]
    obtain ⟨hd, hx, hp, ht, hb⟩ := writeCluster_advance s (s.cluster.smSet jk)
    exact ⟨_, _, rfl, hd.symm, hset, hsets, rfl, hx, hp, ht, hb⟩

/-! ## Elements and VL (R222, R229, R232) -/

theorem withElem_of_lt {s : State} {k : BitVec 3} (h : (s.akVal k).toNat < 64) (f : BitVec 6 → Out) :
    s.withElem k f = f (BitVec.ofNat 6 (s.akVal k).toNat) := by
  rw [State.withElem, if_neg (Nat.not_le.mpr h), BitVec.ofNat_toNat]

theorem exec_sFromVelem (s : State) (i j k : BitVec 3) : exec (.sFromVelem i j k) s = execSFromVelem i j k s := rfl
theorem exec_velemFromS (s : State) (i j k : BitVec 3) : exec (.velemFromS i j k) s = execVelemFromS i j k s := rfl
theorem exec_vlFromA (s : State) (k : BitVec 3) : exec (.vlFromA k) s = execVlFromA k s := rfl

/-- One element of Vi written: the others and the other V registers are kept. -/
theorem velem_writeV_regPut (s : State) (i : BitVec 3) (x e : BitVec 6) (v : Word) :
    (s.writeV i (regPut (s.readV i) x v)).velem i e = if e = x then v else s.velem i e := by
  rw [State.velem, readV_writeV_same]
  split
  · subst e; exact regGet_regPut_same _ _ _
  · exact regGet_regPut_ne _ _ _ _ ‹_›

/-! ## Vector instructions with VL = 0 (R205) -/

/-- The first seven bits of an instruction's first parcel tell whether it is a vector instruction. -/
theorem not_vector_of_encode {x : Instr} {g : BitVec 4} {h i j k : BitVec 3} {ps : List Parcel}
    (he : encode x = mkParcel g h i j k :: ps) (hg : g.toNat < 12) : isVectorInstr x ≠ true := by
  have hg' : (fieldG (mkParcel g h i j k)).toNat = g.toNat := by rw [fieldG_mkParcel]
  rw [fieldG, BitVec.extractLsb'_toNat, Nat.shiftRight_eq_div_pow] at hg'
  have hlt := (mkParcel g h i j k).isLt
  have hopcode : ¬ 0o140 ≤ (mkParcel g h i j k >>> 9).toNat := by
    rw [BitVec.toNat_ushiftRight, Nat.shiftRight_eq_div_pow]
    omega
  rw [isVectorInstr, he]
  simpa using hopcode

theorem exec_of_vl_zero {s : State} {x : Instr} (hx : isVectorInstr x = true) (hz : s.cpu.vl = 0) :
    exec x s = .refused .vlZero ∨ exec x s = .refused .vectorOverlap := by
  cases x with
  | vAndSv | vAndVv | vOrSv | vOrVv | vXorSv | vXorVv | vMergeSv | vMergeVv | vShl | vShr | vAddSv | vAddVv | vSubSv
  | vSubVv | vPop | vParity => exact .inl (if_pos hz)
  | vFmulSv | vFmulVv | vFmulHSv | vFmulHVv | vFmulRSv | vFmulRVv | vFiterSv | vImul32 | vFiterVv | vFaddSv | vFaddVv
  | vFsubSv | vFsubVv | vFrecip => exact .inl (if_pos hz)
  | vmTestZ | vmTestN | vmTestP | vmTestM | vmCidxZ | vmCidxN | vmCidxP | vmCidxM => exact .inl (if_pos hz)
  | ldV | stV | stVScatter => exact .inl (if_pos hz)
  | vDshl i j | vDshr i j | ldVGather i j =>
    by_cases hij : i = j
    · exact .inr (if_pos hij)
    · exact .inl ((if_neg hij).trans (if_pos hz))
  | _ => exact absurd hx (not_vector_of_encode rfl (by decide))

/-- Settles O20: `State.withElem` and the bound on VL decide, and VL = 0 refuses every vector instruction. -/
theorem elementsAndVectorLength : Obligations.ElementsAndVectorLength := by
  intro s i j k
  refine ⟨fun h => ⟨?read, ?write⟩, fun h => ⟨if_pos h, if_pos h⟩, fun h => ?loadVl, fun h => if_pos h,
    fun x hx hz => exec_of_vl_zero hx hz⟩
  case read =>
    rw [exec_sFromVelem, execSFromVelem, withElem_of_lt h]
    exact givesS_done s i _ 1 _ rfl
  case write =>
    rw [exec_velemFromS, execVelemFromS, withElem_of_lt h]
    refine ⟨_, rfl, moved_advance _ _ _ rfl, fun e => ?_, fun r hr => regGet_regPut_ne _ _ _ _ hr, rfl, fun _ => rfl⟩
    have helem : e = BitVec.ofNat 6 (s.akVal k).toNat ↔ e.toNat = (s.akVal k).toNat := by
      rw [← BitVec.toNat_inj, BitVec.toNat_ofNat, Nat.mod_eq_of_lt h]
    exact (velem_writeV_regPut s i _ e _).trans (by simp only [helem])
  case loadVl =>
    rw [exec_vlFromA, execVlFromA, if_neg (Nat.not_lt.mpr h)]
    refine ⟨_, rfl, ?_, moved_advance _ _ _ rfl, rfl, fun _ => rfl⟩
    exact (BitVec.toNat_setWidth _ _).trans (Nat.mod_eq_of_lt (by omega))

end Sys2Proof.Machine
end

section
/-! Holding issue on a test and set (41 R240, 60_exceptions.md R530) and deadlock (R513). -/

namespace Sys2Proof.Machine

open Sys2Proof

/-! ## Deadlock (R513) -/

theorem immGate_iff (m : Mode) : immGate m = true ↔ m.mm = false ∨ m.imm = true := by simp [immGate]

theorem Cpu.stuck_iff (c : Cpu) (cl : Cluster) :
    c.stuck cl = true ↔ ∃ jk, c.holding = some jk ∧ cl.smIsSet jk = true := by
  unfold Cpu.stuck
  split <;> simp [*]

/-- A deadlock changes F.DL alone. -/
theorem Cpu.seeDeadlock_frame (n : BitVec 4) (c : Cpu) :
    c.seeDeadlock n = { c with f := { c.f with dl := (c.seeDeadlock n).f.dl } } := by
  unfold Cpu.seeDeadlock
  split <;> rfl

theorem Cpu.seeDeadlock_dl (n : BitVec 4) (c : Cpu) : (c.seeDeadlock n).f.dl = true ↔
    c.f.dl = true ∨ ((c.running = true ∧ c.cln = n) ∧ (c.m.mm = false ∨ c.m.imm = true)) := by
  have hgate := immGate_iff c.m
  unfold Cpu.seeDeadlock
  split
  · rename_i h
    simp only [Bool.and_eq_true, beq_iff_eq] at h
    exact iff_of_true rfl (.inr ⟨h.1, hgate.mp h.2⟩)
  · rename_i h
    simp only [Bool.and_eq_true, beq_iff_eq] at h
    exact ⟨.inl, fun h' => h'.resolve_right fun ⟨hgroup, hg⟩ => h ⟨hgroup, hgate.mpr hg⟩⟩

theorem deadlocked_iff {s : State} (hrun : s.cpu.running = true) : s.deadlocked = true ↔
    s.cpu.cln ≠ 0 ∧ ∀ c ∈ s.cpus, c.running = true ∧ c.cln = s.cpu.cln →
      ∃ jk, c.holding = some jk ∧ s.cluster.smIsSet jk = true := by
  simp only [← Cpu.stuck_iff]
  simp only [State.deadlocked, State.cpus, List.forall_mem_cons, Bool.and_eq_true, List.all_eq_true, bne_iff_ne, hrun,
    and_assoc, true_and, Bool.or_eq_true, Bool.not_eq_true', Bool.and_eq_false_imp, beq_eq_false_iff_ne]
  refine and_congr_right fun _ => and_congr (by simp) (forall₂_congr fun c _ => ?_)
  cases c.stuck s.cluster <;> simp

theorem checkDeadlock_of_deadlocked {s : State} (h : s.deadlocked = true) : s.checkDeadlock =
    { s with cpu := s.cpu.seeDeadlock s.cpu.cln, others := s.others.map (Cpu.seeDeadlock s.cpu.cln) } := if_pos h

theorem checkDeadlock_of_not {s : State} (h : ¬ s.deadlocked = true) : s.checkDeadlock = s := if_neg h

/-! ## The boundary of a CPU that holds -/

/-- A boundary changes F alone of the CPU that moves. -/
theorem atBoundary_cpu (s : State) : s.atBoundary.cpu = { s.cpu with f := s.atBoundary.cpu.f } := by
  have hroute : (s.withCpu s.cpu.seeRequests).routeIo.cpu =
      { s.cpu with f := (s.withCpu s.cpu.seeRequests).routeIo.cpu.f } := by
    rcases routeIo_cases (s.withCpu s.cpu.seeRequests) with ⟨-, h⟩ | ⟨p, -, n, h⟩
    · rw [h]; rfl
    · rw [h, State.drawn_cpu, State.updateCpu_cpu]
      split <;> rfl
  by_cases h : (s.withCpu s.cpu.seeRequests).routeIo.deadlocked = true
  · rw [State.atBoundary, checkDeadlock_of_deadlocked h, Cpu.seeDeadlock_frame, hroute]
  · rw [State.atBoundary, checkDeadlock_of_not h]
    exact hroute

theorem atBoundary_clusters (s : State) : s.atBoundary.clusters = s.clusters := by
  have hroute : (s.withCpu s.cpu.seeRequests).routeIo.clusters = s.clusters := by
    rcases routeIo_cases (s.withCpu s.cpu.seeRequests) with ⟨-, h⟩ | ⟨p, -, n, h⟩ <;> rw [h] <;> rfl
  by_cases h : (s.withCpu s.cpu.seeRequests).routeIo.deadlocked = true
  · rw [State.atBoundary, checkDeadlock_of_deadlocked h]
    exact hroute
  · rw [State.atBoundary, checkDeadlock_of_not h]
    exact hroute

/-- R240: what a running CPU that holds on a test and set does at its boundary with no flag set: the test and set again,
without a fetch. -/
theorem step_retries {s u : State} {jk : BitVec 6} (hd : s.deliver = .ok u) (hrun : u.cpu.running = true)
    (hflag : u.atBoundary.cpu.f.any = false) (hhold : u.atBoundary.cpu.holding = some jk) :
    step s = exec (.smTs jk) u.atBoundary := by
  obtain ⟨hstarted, hdead⟩ : u.cpu.started = true ∧ u.cpu.deadstart = false := by simpa [Cpu.running] using hrun
  show orStop s.deliver State.act = _
  rw [hd]
  simp [orStop, State.act, hstarted, hdead, State.boundary, hflag, State.issue, hhold]

/-- Settles O53: `State.checkDeadlock` by `deadlocked_iff`, and the retried test and set by `step_retries`. -/
theorem holdsAndDeadlock : Obligations.HoldsAndDeadlock := by
  refine ⟨fun s hrun => ?deadlock, fun s u jk hd hrun hflag hhold hcln hjk => ?retry⟩
  case deadlock =>
    have hdead := deadlocked_iff hrun
    by_cases h : s.deadlocked = true
    · rw [checkDeadlock_of_deadlocked h]
      refine ⟨?_, rfl⟩
      change List.Forall₂ _ s.cpus (s.cpus.map (Cpu.seeDeadlock s.cpu.cln))
      refine List.forall₂_map_right_iff.mpr (List.forall₂_same.mpr fun c _ => ⟨Cpu.seeDeadlock_frame _ c, ?_⟩)
      exact (Cpu.seeDeadlock_dl _ c).trans (or_congr_right ⟨fun hc => ⟨hdead.mp h, hc⟩, fun hc => hc.2⟩)
    · rw [checkDeadlock_of_not h]
      refine ⟨List.forall₂_same.mpr fun c _ => ⟨rfl, .inl, fun hc => hc.resolve_right fun hc => ?_⟩, rfl⟩
      exact h (hdead.mpr hc.1)
  case retry =>
    have hcpu := atBoundary_cpu u
    have hclusters := atBoundary_clusters u
    rw [step_retries hd hrun hflag (by rw [hcpu]; exact hhold)]
    generalize u.atBoundary = v at hcpu hclusters
    have hvp : v.cpu.p = u.cpu.p := by rw [hcpu]
    have hvcln : v.cpu.cln = u.cpu.cln := by rw [hcpu]
    have hcluster : v.cluster = regGet u.clusters u.cpu.cln := by rw [State.cluster, hvcln, hclusters]
    have hv : v.cpu.cln ≠ 0 := hvcln ▸ hcln
    refine ⟨fun hset => ?_, fun hclear => ⟨_, exec_smTs_of_clear hv jk (hcluster ▸ hclear), rfl, ?_, ?_⟩⟩
    · rw [exec_smTs_of_set hv jk (hcluster ▸ hset)]
      have hkeeps : v.cpu.holding = some jk := by rw [hcpu]; exact hhold
      rw [State.hold, ← hkeeps]
      rfl
    · exact moved_advance u _ 1 hvp
    · rw [← hvcln]
      refine (congrArg (Cluster.smIsSet · jk) (regGet_regPut_same v.clusters v.cpu.cln _)).trans ?_
      rw [smIsSet_smSet _ hjk hjk, decide_eq_true rfl, Bool.true_or]

end Sys2Proof.Machine
end

section
/-! Vector instructions on integers and bits (41 R205; 43_integer_arithmetic.md R296 to R299, 45_logical.md R378 to
R398, 44_floating_point.md R346), shifts by an A register (46_shift.md) and bit counts (47_bit_count.md). -/

namespace Sys2Proof.Machine

open Sys2Proof

/-! ## Sums and differences (R296 to R299) -/

theorem word_sub_toNat (x y : Word) : (x - y).toNat = (x.toNat + 2 ^ 64 - y.toNat) % 2 ^ 64 := by
  rw [BitVec.toNat_sub]
  have := y.isLt
  congr 1
  omega

/-- Settles O34: each instruction is one of the vector frame (`givesV_vectorOp`). -/
theorem vectorIntegerArithmetic : Obligations.VectorIntegerArithmetic := fun s i _ _ hvl =>
  ⟨givesV_vectorOp s i _ _ hvl fun _ _ => BitVec.toNat_add _ _,
    givesV_vectorOp s i _ _ hvl fun _ _ => BitVec.toNat_add _ _,
    givesV_vectorOp s i _ _ hvl fun _ _ => word_sub_toNat _ _,
    givesV_vectorOp s i _ _ hvl fun _ _ => word_sub_toNat _ _⟩

/-! ## 32-bit integer products (R346) -/

/-- The precondition of R346 as arithmetic. -/
theorem imul32Exact_of_toNat {a b : Word} (ha : a.toNat < 2 ^ 63) (ha' : a.toNat % 2 ^ 31 = 0) (hb : b.toNat < 2 ^ 48)
    (hb' : b.toNat % 2 ^ 16 = 0) : imul32Exact a b = true := by
  simp only [imul32Exact, Bool.and_eq_true, Bool.not_eq_true', beq_iff_eq]
  refine ⟨⟨⟨?_, ?_⟩, ?_⟩, ?_⟩
  · exact Nat.testBit_lt_two_pow ha
  · apply BitVec.eq_of_toNat_eq
    rw [BitVec.extractLsb'_toNat, Nat.shiftRight_zero, ha']
    rfl
  · apply BitVec.eq_of_toNat_eq
    rw [BitVec.extractLsb'_toNat, Nat.shiftRight_eq_div_pow, Nat.div_eq_of_lt hb]
    rfl
  · apply BitVec.eq_of_toNat_eq
    rw [BitVec.extractLsb'_toNat, Nat.shiftRight_zero, hb']
    rfl

theorem imul32_toNat {a b : Word} (d : Word) (ha : a.toNat < 2 ^ 63) (ha' : a.toNat % 2 ^ 31 = 0)
    (hb : b.toNat < 2 ^ 48) (hb' : b.toNat % 2 ^ 16 = 0) :
    (imul32 a b d).toNat = a.toNat / 2 ^ 31 * (b.toNat / 2 ^ 16) % 2 ^ 32 := by
  rw [imul32, if_pos (imul32Exact_of_toNat ha ha' hb hb'), BitVec.toNat_setWidth_of_le (by decide), BitVec.toNat_mul,
    BitVec.extractLsb'_toNat, BitVec.extractLsb'_toNat, Nat.shiftRight_eq_div_pow, Nat.shiftRight_eq_div_pow,
    ← Nat.mul_mod]

/-- Settles O39: the vector frame with a draw for the elements of which nothing is said. -/
theorem integerProductsOf166 : Obligations.IntegerProductsOf166 := by
  intro s i j k hvl a
  let f : BitVec 6 → Word := fun e => imul32 (s.sjVal j) (s.velem k e) (s.drawAt e.toNat)
  have hexec : exec (.vImul32 i j k) s = (((s.writeV i (s.vectorResult i f)).markVector).drawnIf
      (s.anyElem fun e => !imul32Exact (s.sjVal j) (s.velem k e)) s.cpu.vl.toNat).done 1 := if_neg hvl
  rw [hexec]
  refine ⟨_, rfl, moved_advance _ _ _ (by rw [State.drawnIf_cpu]; rfl), fun _ => by simp, ?_, ?_⟩
  · exact vectorIs_result s _ i f _ (by simp) fun e _ => imul32_toNat _
  · generalize s.anyElem _ = b
    cases b <;> rfl

/-! ## Logical instructions and merges (R378 to R385) -/

/-- Settles O41: bit by bit; a merge by the bit of VM that `vmBit` reads. -/
theorem vectorLogic : Obligations.VectorLogic := by
  intro s i j k hvl x elems merges
  have hand (p q : Word) (b : Nat) (_ : b < 64) := BitVec.getLsbD_and (x := p) (y := q) (i := b)
  have hor (p q : Word) (b : Nat) (_ : b < 64) := BitVec.getLsbD_or (x := p) (y := q) (i := b)
  have hxor (p q : Word) (b : Nat) (_ : b < 64) : (p ^^^ q).getLsbD b = (p.getLsbD b != q.getLsbD b) :=
    BitVec.getLsbD_xor
  have hmerge (e : BitVec 6) (p q : Word) :
      (s.cpu.vm.getLsbD (63 - e.toNat) = true → (if vmBit s.cpu.vm e then p else q) = p) ∧
        (s.cpu.vm.getLsbD (63 - e.toNat) = false → (if vmBit s.cpu.vm e then p else q) = q) :=
    ⟨fun h => if_pos h, fun h => if_neg (Bool.eq_false_iff.mp h)⟩
  exact ⟨givesV_vectorOp s i _ _ hvl fun _ _ => hand _ _, givesV_vectorOp s i _ _ hvl fun _ _ => hand _ _,
    givesV_vectorOp s i _ _ hvl fun _ _ => hor _ _, givesV_vectorOp s i _ _ hvl fun _ _ => hor _ _,
    givesV_vectorOp s i _ _ hvl fun _ _ => hxor _ _, givesV_vectorOp s i _ _ hvl fun _ _ => hxor _ _,
    givesV_vectorOp s i _ _ hvl fun e _ => hmerge e _ _, givesV_vectorOp s i _ _ hvl fun e _ => hmerge e _ _⟩

/-! ## Mask tests (R390 to R398) -/

/-- A test of an element is a property of its value as a two's complement integer. -/
def TestsSign (test : Word → Bool) (p : Int → Bool) : Prop := ∀ x, test x = p x.toInt

theorem testsSign_zero : TestsSign testZ (fun x => x == 0) := fun x =>
  Bool.eq_iff_iff.mpr (by simp [testZ, ← BitVec.toInt_inj])

theorem testsSign_nonzero : TestsSign testN (fun x => x != 0) := fun x => by
  simp only [testN, bne]
  exact congrArg _ (testsSign_zero x)

theorem testsSign_minus : TestsSign testM (fun x => decide (x < 0)) := fun x => by
  rw [testM, ← BitVec.msb_eq_getLsbD_last x, BitVec.msb_eq_toInt]

theorem testsSign_plus : TestsSign testP (fun x => decide (0 ≤ x)) := fun x => by
  rw [testP, ← testM, testsSign_minus x, ← decide_not]
  exact decide_eq_decide.mpr Int.not_lt

theorem getLsbD_maskOf (f : BitVec 6 → Bool) {n : Nat} (hn : n ≤ 64) (e : BitVec 6) :
    (maskOf f n).getLsbD (63 - e.toNat) = (decide (e.toNat < n) && f e) := by
  have he := e.isLt
  induction n with
  | zero => simp [maskOf]
  | succ k ih =>
    have hbit : ∀ b : Bool, (((if b then 0x8000000000000000 >>> k else 0 : Nat) : Word)).getLsbD (63 - e.toNat)
        = (decide (e.toNat = k) && b) := by
      have htop : (0x8000000000000000 : Nat) = 2 ^ 63 := rfl
      intro b
      cases b
      · simp
      · rw [if_pos rfl, BitVec.natCast_eq_ofNat, BitVec.getLsbD_ofNat, Nat.testBit_shiftRight, htop,
          Nat.testBit_two_pow, ← Bool.decide_and, Bool.and_true]
        exact decide_eq_decide.mpr (by omega)
    rw [maskOf, BitVec.getLsbD_or, ih (by omega), hbit]
    rcases Nat.lt_trichotomy e.toNat k with h | h | h
    · simp [h, h.ne, Nat.lt_succ_of_lt h]
    · have hek : BitVec.ofNat 6 k = e := by rw [← h, BitVec.ofNat_toNat, BitVec.setWidth_eq]
      simp [h, hek]
    · simp [h.ne', Nat.not_lt.mpr h.le, Nat.not_lt.mpr (Nat.succ_le_of_lt h)]

section
variable (s : State) {test : Word → Bool} {p : Int → Bool} (hp : TestsSign test p) (j : BitVec 3)
include hp

/-- R390: VM's bit for an element below VL is the test of it. -/
theorem getLsbD_testedMask {e : BitVec 6} (he : e.toNat < s.cpu.vl.toNat) :
    (s.testedMask test j).getLsbD (63 - e.toNat) = p (s.velem j e).toInt := by
  rw [State.testedMask, getLsbD_maskOf _ le_rfl, decide_eq_true e.isLt, Bool.true_and, if_pos he, hp]

/-- R395: element `m` of the compressed result is the number of the `m`-th element that passes. -/
theorem compressed_elem (hvl : s.cpu.vl.toNat ≤ 64) {m e : Nat}
    (h : ((List.range s.cpu.vl.toNat).filter fun n => p (s.velem j (BitVec.ofNat 6 n)).toInt)[m]? = some e) :
    (regGet (s.compressed test j) (BitVec.ofNat 6 m)).toNat = e := by
  have hpass : s.passing test j = (List.range s.cpu.vl.toNat).filter fun n => p (s.velem j (BitVec.ofNat 6 n)).toInt :=
    List.filter_congr fun n _ => hp _
  rw [← hpass] at h
  obtain ⟨hm, hget⟩ := List.getElem?_eq_some_iff.mp h
  have hlen : (s.passing test j).length ≤ s.cpu.vl.toNat :=
    (List.length_filter_le _ _).trans (List.length_range ..).le
  have he : e < s.cpu.vl.toNat := by
    have hmem : e ∈ s.passing test j := hget ▸ List.getElem_mem hm
    exact List.mem_range.mp (List.mem_of_mem_filter hmem)
  have hm64 : (BitVec.ofNat 6 m).toNat = m := by
    rw [BitVec.toNat_ofNat]
    exact Nat.mod_eq_of_lt (by omega)
  rw [State.compressed, regGet_ofFn]
  simp only [hm64, h, BitVec.toNat_ofNat]
  omega

end

/-- Settles O42: the four tests are `TestsSign`; the common parts of 175 are `State.maskTest` and
`State.compressedIndex`. -/
theorem maskTests : Obligations.MaskTests := by
  intro s i j hvl hle mask tests compresses
  have htests {test : Word → Bool} {p : Int → Bool} (hp : TestsSign test p) : tests (s.maskTest test j) p := by
    rw [State.maskTest, if_neg hvl]
    exact ⟨_, rfl, moved_advance _ _ _ rfl, fun _ => rfl, fun e he => getLsbD_testedMask s hp j he, rfl⟩
  have hcompresses {test : Word → Bool} {p : Int → Bool} (hp : TestsSign test p) :
      compresses (s.compressedIndex test i j) p := by
    rw [State.compressedIndex, if_neg hvl]
    refine ⟨fun hij => if_pos hij, fun hij => ?_⟩
    rw [if_neg hij]
    refine ⟨_, rfl, moved_advance _ _ _ rfl, fun _ => rfl, fun e he => getLsbD_testedMask s hp j he, fun m e h => ?_,
      fun r hr => regGet_regPut_ne _ _ _ _ hr, rfl⟩
    rw [velem_writeV s _ i (s.compressed test j) _ rfl]
    exact compressed_elem s hp j hle h
  exact ⟨htests testsSign_zero, htests testsSign_nonzero, htests testsSign_plus, htests testsSign_minus,
    hcompresses testsSign_zero, hcompresses testsSign_nonzero, hcompresses testsSign_plus, hcompresses testsSign_minus⟩

/-! ## Shifts (R400, R405 to R413) -/

theorem shl64_toNat (v : Word) (c : Nat) : (shl64 v c).toNat = v.toNat * 2 ^ c % 2 ^ 64 := by
  rw [shl64]
  split
  · rename_i h
    rw [Nat.mod_eq_zero_of_dvd (Dvd.dvd.mul_left (Nat.pow_dvd_pow 2 h) _)]
    rfl
  · rw [BitVec.toNat_shiftLeft, Nat.shiftLeft_eq]

theorem shr64_toNat (v : Word) (c : Nat) : (shr64 v c).toNat = v.toNat / 2 ^ c := by
  rw [shr64]
  split
  · rename_i h
    rw [Nat.div_eq_of_lt (v.isLt.trans_le (Nat.pow_le_pow_right two_pos h))]
    rfl
  · rw [BitVec.toNat_ushiftRight, Nat.shiftRight_eq_div_pow]

/-- Two words side by side. -/
theorem append_word_toNat (hi lo : Word) : (hi ++ lo).toNat = hi.toNat * 2 ^ 64 + lo.toNat := by
  rw [BitVec.toNat_append, ← Nat.shiftLeft_add_eq_or_of_lt lo.isLt, Nat.shiftLeft_eq]

theorem dshl_toNat (hi lo : Word) (c : Nat) :
    (dshl hi lo c).toNat = (hi.toNat * 2 ^ 64 + lo.toNat) * 2 ^ c / 2 ^ 64 % 2 ^ 64 := by
  rw [dshl, ← append_word_toNat]
  generalize hi ++ lo = d
  split
  · rename_i h
    obtain ⟨n, rfl⟩ := Nat.exists_eq_add_of_le h
    have hdouble : d.toNat * 2 ^ (128 + n) = d.toNat * 2 ^ n * 2 ^ 64 * 2 ^ 64 := by ring
    rw [hdouble, Nat.mul_div_cancel _ (by positivity), Nat.mul_mod_left]
    rfl
  · rw [BitVec.extractLsb'_toNat, BitVec.toNat_shiftLeft, Nat.shiftLeft_eq, Nat.shiftRight_eq_div_pow]
    omega

theorem dshr_toNat (hi lo : Word) (c : Nat) :
    (dshr hi lo c).toNat = (hi.toNat * 2 ^ 64 + lo.toNat) / 2 ^ c % 2 ^ 64 := by
  rw [dshr, ← append_word_toNat]
  generalize hi ++ lo = d
  split
  · rename_i h
    rw [Nat.div_eq_of_lt (d.isLt.trans_le (Nat.pow_le_pow_right two_pos h))]
    rfl
  · rw [BitVec.extractLsb'_toNat, Nat.shiftRight_zero, BitVec.toNat_ushiftRight, Nat.shiftRight_eq_div_pow]

section
variable (s : State) (j : BitVec 3) (e : BitVec 6)

theorem velem_ofNat_toNat : s.velem j (BitVec.ofNat 6 e.toNat) = s.velem j e := by
  rw [BitVec.ofNat_toNat, BitVec.setWidth_eq]

theorem nextElem_toNat : (s.nextElem j e).toNat =
    if e.toNat + 1 < s.cpu.vl.toNat then (s.velem j (BitVec.ofNat 6 (e.toNat + 1))).toNat else 0 := by
  have hnext : BitVec.ofNat 6 (e.toNat + 1) = e + 1 := by
    rw [BitVec.ofNat_add, BitVec.ofNat_toNat, BitVec.setWidth_eq]
    rfl
  rw [State.nextElem, hnext]
  split <;> rfl

theorem prevElem_toNat : (s.prevElem j e).toNat =
    if e.toNat = 0 then 0 else (s.velem j (BitVec.ofNat 6 (e.toNat - 1))).toNat := by
  have hzero : e = 0 ↔ e.toNat = 0 := BitVec.toNat_inj.symm
  rw [State.prevElem]
  by_cases h : e.toNat = 0
  · rw [if_pos (hzero.mpr h), if_pos h]
    rfl
  · have hprev : BitVec.ofNat 6 (e.toNat - 1) = e - 1 := by
      apply BitVec.eq_of_toNat_eq
      rw [BitVec.toNat_ofNat, BitVec.toNat_sub]
      have := e.isLt
      change _ = (2 ^ 6 - 1 + e.toNat) % 2 ^ 6
      omega
    rw [if_neg (mt hzero.mp h), if_neg h, hprev]

end

/-- Settles O43: the shifts as arithmetic, the neighbours of an element by number. -/
theorem shiftsByRegister : Obligations.ShiftsByRegister := by
  intro s i j k v c d x next prev
  refine ⟨givesS_done s i _ 1 _ (dshl_toNat _ _ _), givesS_done s i _ 1 _ (dshr_toNat _ _ _),
    fun hvl _ => ⟨?shl, ?shr, fun hij => ⟨?dshl, ?dshr⟩⟩, fun hij => ⟨if_pos hij, if_pos hij⟩⟩
  case shl =>
    refine givesV_vectorOp s i _ _ hvl fun e _ => ?_
    rw [shl64_toNat, ← velem_ofNat_toNat s j e]
  case shr =>
    refine givesV_vectorOp s i _ _ hvl fun e _ => ?_
    rw [shr64_toNat, ← velem_ofNat_toNat s j e]
  case dshl =>
    have hexec : exec (.vDshl i j k) s =
        s.vectorOp i fun e => dshl (s.velem j e) (s.nextElem j e) (s.akVal k).toNat := if_neg hij
    rw [hexec]
    refine givesV_vectorOp s i _ _ hvl fun e _ => ?_
    rw [dshl_toNat, nextElem_toNat, ← velem_ofNat_toNat s j e]
  case dshr =>
    have hexec : exec (.vDshr i j k) s =
        s.vectorOp i fun e => dshr (s.prevElem j e) (s.velem j e) (s.akVal k).toNat := if_neg hij
    rw [hexec]
    refine givesV_vectorOp s i _ _ hvl fun e _ => ?_
    rw [dshr_toNat, prevElem_toNat, ← velem_ofNat_toNat s j e]

/-! ## Counts (R430 to R434) -/

theorem onesIn_eq_countP (v n : Nat) : onesIn v n = (List.range n).countP fun b => v.testBit b := by
  induction n with
  | zero => rfl
  | succ k ih => rw [onesIn, ih, List.range_succ, List.countP_append, List.countP_singleton]

theorem popcount_eq_countOnes (w : Word) : popcount w = countOnes w := onesIn_eq_countP w.toNat 64

theorem popcount_le (w : Word) : popcount w ≤ 64 := by
  rw [popcount_eq_countOnes]
  exact List.countP_le_length.trans (List.length_range ..).le

/-- Shifted left by its leading zeros a number reaches the top bit of the width, and no further. -/
theorem leadingZeros_normalizes {c n : Nat} (hc : c ≠ 0) (hn : c < 2 ^ n) :
    leadingZeros c n < n ∧ 2 ^ (n - 1) ≤ c * 2 ^ leadingZeros c n ∧ c * 2 ^ leadingZeros c n < 2 ^ n := by
  induction n with
  | zero => omega
  | succ k ih =>
    rw [leadingZeros, testBit_top hn]
    by_cases h : 2 ^ k ≤ c
    · simpa [h] using hn
    · obtain ⟨hlt, hlo, hhi⟩ := ih (by omega)
      have hk : k + 1 - 1 = (k - 1) + 1 := by omega
      rw [decide_eq_false h, if_neg Bool.false_ne_true, pow_succ, ← mul_assoc, hk, pow_succ, pow_succ]
      omega

theorem leadingZeros_zero (n : Nat) : leadingZeros 0 n = n := by
  induction n with
  | zero => rfl
  | succ k ih => rw [leadingZeros, Nat.zero_testBit, if_neg Bool.false_ne_true, ih]

theorem isLeadingZeros_lzcount64 (w : Word) : IsLeadingZeros w (lzcount64 w) := by
  rw [lzcount64]
  by_cases hw : w = 0
  · subst hw
    exact .inl ⟨rfl, leadingZeros_zero 64⟩
  · have hne : w.toNat ≠ 0 := fun h => hw (BitVec.eq_of_toNat_eq h)
    obtain ⟨hlt, hlo, hhi⟩ := leadingZeros_normalizes hne w.isLt
    generalize leadingZeros w.toNat 64 = z at hlt hlo hhi
    have hpos : 0 < 2 ^ z := by positivity
    have hlow : 2 ^ (63 - z) ≤ w.toNat := by
      refine Nat.le_of_mul_le_mul_right ?_ hpos
      rw [← pow_add, Nat.sub_add_cancel (by omega)]
      exact hlo
    have hhigh : w.toNat < 2 ^ (63 - z + 1) := by
      refine Nat.lt_of_mul_lt_mul_right (a := 2 ^ z) ?_
      rw [← pow_add, show 63 - z + 1 + z = 64 by omega]
      exact hhi
    refine .inr ⟨hlt, ?_, fun b hb => ?_⟩
    · rw [BitVec.getLsbD, testBit_top hhigh, decide_eq_true hlow]
    · exact Nat.testBit_lt_two_pow (hhigh.trans_le (Nat.pow_le_pow_right two_pos hb))

theorem lzcount64_le (w : Word) : lzcount64 w ≤ 64 := by
  rcases isLeadingZeros_lzcount64 w with ⟨-, h⟩ | ⟨h, -⟩ <;> omega

/-- A small number in an A register, in either mode. -/
theorem amask_ofNat_toNat (eam : Bool) {n : Nat} (hn : n ≤ 64) : (amask eam (BitVec.ofNat 32 n)).toNat = n := by
  rw [amask_toNat, BitVec.toNat_ofNat, mod_two_pow_mod_addrWidth]
  exact Nat.mod_eq_of_lt (lt_of_le_of_lt hn (by cases eam <;> decide))

/-- Settles O44: the counts are at most 64, so they enter their registers as they are. -/
theorem bitCounts : Obligations.BitCounts := by
  intro s i j
  have hsmall {n : Nat} (hn : n ≤ 64) : (BitVec.ofNat 64 n).toNat = n := by
    rw [BitVec.toNat_ofNat]
    omega
  refine ⟨givesA_done s i _ 1 _ ?pop, givesA_done s i _ 1 _ ?parity, givesA_done s i _ 1 _ ?lz,
    fun hvl => ⟨givesV_vectorOp s i _ _ hvl fun e _ => ?vpop, givesV_vectorOp s i _ _ hvl fun e _ => ?vparity⟩⟩
  case pop => rw [amask_ofNat_toNat _ (popcount_le _), popcount_eq_countOnes]
  case parity => rw [amask_ofNat_toNat _ (by omega), popcount_eq_countOnes]
  case lz =>
    rw [amask_ofNat_toNat _ (lzcount64_le _)]
    exact isLeadingZeros_lzcount64 _
  case vpop => rw [hsmall (popcount_le _), popcount_eq_countOnes]
  case vparity => rw [hsmall (by omega), popcount_eq_countOnes]

end Sys2Proof.Machine
end

section
/-! Floating-point words and the range check (44_floating_point.md R310, R319), and sums (R313, R324 to R329). -/

namespace Sys2Proof.Machine

open Sys2Proof

/-! ## Fields of a word (R310) -/

theorem fpCoef_lt (w : Word) : fpCoef w < 2 ^ 48 := BitVec.isLt _

theorem fpSign_fpNegate (w : Word) : fpSign (fpNegate w) = !fpSign w := by
  rw [fpSign, fpNegate, BitVec.getLsbD_xor, fpSign]
  exact Bool.xor_true _

theorem fpExp_fpNegate (w : Word) : fpExp (fpNegate w) = fpExp w := by
  rw [fpExp, fpNegate, BitVec.extractLsb'_xor, fpExp]
  exact congrArg BitVec.toNat (BitVec.xor_zero (x := w.extractLsb' 48 15))

theorem fpCoef_fpNegate (w : Word) : fpCoef (fpNegate w) = fpCoef w := by
  rw [fpCoef, fpNegate, BitVec.extractLsb'_xor, fpCoef]
  exact congrArg BitVec.toNat (BitVec.xor_zero (x := w.extractLsb' 0 48))

/-! ## The range check (R319) -/

theorem eq_rawZero_iff (r : FPRaw) : r = rawZero ↔ r.coef = 0 ∧ r.exp = 0 ∧ r.sign = false := by
  cases r
  simp only [rawZero, FPRaw.mk.injEq]
  tauto

/-- `range_am` is the relation that the statements use. -/
theorem rangeChecked_rangeAm (r : FPRaw) : RangeChecked r (rangeAm r).1 (rangeAm r).2 := by
  have hraw := eq_rawZero_iff r
  rw [RangeChecked, rangeAm]
  by_cases hzero : r.coef = 0 ∧ r.exp = 0 ∧ r.sign = false
  · rw [if_pos hzero, if_pos (.inl (hraw.mpr hzero))]
    exact ⟨rfl, rfl⟩
  rw [if_neg hzero]
  by_cases hover : 0o60000 ≤ r.exp
  · rw [if_pos hover, if_neg (not_or.mpr ⟨mt hraw.mp hzero, by omega⟩)]
    exact ⟨fpSign_fpPack _ _ _, fpCoef_fpPack _ _ _, by rw [if_pos hover]; exact ⟨fpExp_fpPack _ _ _, rfl⟩⟩
  rw [if_neg hover]
  by_cases hunder : r.exp ≤ 0o17777
  · rw [if_pos hunder, if_pos (.inr hunder)]
    exact ⟨rfl, rfl⟩
  · rw [if_neg hunder, if_neg (not_or.mpr ⟨mt hraw.mp hzero, hunder⟩), if_neg hover]
    refine ⟨fpSign_fpPack _ _ _, fpCoef_fpPack _ _ _, ?_, rfl⟩
    rw [fpExp_fpPack]
    omega

/-- A scalar result. -/
theorem givesSFp_scalarFp (s : State) (i : BitVec 3) (r : Word × Bool) {q : Word → Bool → Prop} (h : q r.1 r.2) :
    GivesSFp (s.scalarFp i r) s i q := givesSFp_of s i r 0 q h

/-! ## Sums (R313) -/

theorem faddNormal_zero (s : Bool) (x : Nat) : faddNormal s x 0 = rawZero := if_pos rfl

/-- Normalization: the coefficient is shifted left until bit 47 is set, and the exponent follows. -/
theorem faddNormal_of_ne {c : Nat} (hc : c ≠ 0) (hlt : c < 2 ^ 48) (s : Bool) (x : Nat) :
    (faddNormal s x c).sign = s ∧ 2 ^ 47 ≤ (faddNormal s x c).coef.toNat ∧
      ∃ z : Nat, (faddNormal s x c).exp = (x : Int) - z ∧ (faddNormal s x c).coef.toNat = c * 2 ^ z := by
  obtain ⟨-, hlo, hhi⟩ := leadingZeros_normalizes hc hlt
  have hcoef : (BitVec.ofNat 48 (c * 2 ^ leadingZeros c 48)).toNat = c * 2 ^ leadingZeros c 48 := by
    rw [BitVec.toNat_ofNat]
    exact Nat.mod_eq_of_lt hhi
  rw [faddNormal, if_neg hc]
  exact ⟨rfl, hlo.trans_eq hcoef.symm, _, rfl, hcoef⟩

/-- A coefficient that is normalized already stays as it is. -/
theorem faddNormal_of_normal {c : Nat} (hlo : 2 ^ 47 ≤ c) (hhi : c < 2 ^ 48) (s : Bool) (x : Nat) :
    faddNormal s x c = { sign := s, exp := x, coef := BitVec.ofNat 48 c } := by
  obtain ⟨-, -, hnorm⟩ := leadingZeros_normalizes (show c ≠ 0 by omega) hhi
  have hz : leadingZeros c 48 = 0 := by
    by_contra h
    have htwo : 2 ^ 1 ≤ 2 ^ leadingZeros c 48 := Nat.pow_le_pow_right two_pos (Nat.one_le_iff_ne_zero.mpr h)
    have := Nat.mul_le_mul hlo htwo
    omega
  rw [faddNormal, if_neg (by omega), hz]
  simp

/-- What R313 says of the raw sum whose signed coefficient at exponent `x` is `n`. -/
def SumAt (x : Nat) (n : Int) (r : FPRaw) : Prop :=
  if n = 0 then r = rawZero
  else r.sign = decide (n < 0) ∧ 2 ^ 47 ≤ r.coef.toNat ∧
    if 2 ^ 48 ≤ n.natAbs then r.exp = x + 1 ∧ r.coef.toNat = n.natAbs / 2
    else ∃ z : Nat, r.exp = (x : Int) - z ∧ r.coef.toNat = n.natAbs * 2 ^ z

/-- A sign and magnitude as an integer. -/
def signedCoef (s : Bool) (c : Nat) : Int := if s then -(c : Int) else c

theorem natAbs_signedCoef (s : Bool) (c : Nat) : (signedCoef s c).natAbs = c := by
  cases s <;> simp [signedCoef]

theorem signedCoef_eq_zero (s : Bool) (c : Nat) : signedCoef s c = 0 ↔ c = 0 := by
  cases s <;> simp [signedCoef]

theorem signedCoef_neg {s : Bool} {c : Nat} (hc : c ≠ 0) : decide (signedCoef s c < 0) = s := by
  cases s
  · exact decide_eq_false (by simp [signedCoef])
  · exact decide_eq_true (by simp only [signedCoef, if_true]; omega)

theorem signedCoef_add (s : Bool) (c d : Nat) : signedCoef s c + signedCoef s d = signedCoef s (c + d) := by
  cases s <;> simp only [signedCoef, if_true, Bool.false_eq_true, if_false] <;> omega

theorem signedCoef_sub (s : Bool) {c d : Nat} (h : d ≤ c) :
    signedCoef s c + signedCoef (!s) d = signedCoef s (c - d) := by
  cases s <;> simp only [signedCoef, Bool.not_true, Bool.not_false, if_true, Bool.false_eq_true, if_false] <;> omega

/-- A sum of at most 48 bits is normalized. -/
theorem sumAt_faddNormal (s : Bool) (x : Nat) {c : Nat} (hc : c < 2 ^ 48) :
    SumAt x (signedCoef s c) (faddNormal s x c) := by
  have hzero := signedCoef_eq_zero s c
  by_cases h : c = 0
  · rw [SumAt, if_pos (hzero.mpr h), h, faddNormal_zero]
  · rw [SumAt, if_neg (mt hzero.mp h), natAbs_signedCoef, if_neg (Nat.not_le.mpr hc), signedCoef_neg h]
    exact faddNormal_of_ne h hc s x

/-- A sum of 49 bits loses its lowest and raises the exponent. -/
theorem sumAt_faddNormal_carry (s : Bool) (x : Nat) {c : Nat} (hlo : 2 ^ 48 ≤ c) (hhi : c < 2 ^ 49) :
    SumAt x (signedCoef s c) (faddNormal s (x + 1) (c / 2)) := by
  have hcoef : (BitVec.ofNat 48 (c / 2)).toNat = c / 2 := by
    rw [BitVec.toNat_ofNat]
    omega
  have hzero : signedCoef s c ≠ 0 := mt (signedCoef_eq_zero s c).mp (by omega)
  rw [SumAt, if_neg hzero, natAbs_signedCoef, if_pos hlo, signedCoef_neg (by omega),
    faddNormal_of_normal (by omega) (by omega)]
  refine ⟨rfl, ?_, rfl, hcoef⟩
  change 2 ^ 47 ≤ (BitVec.ofNat 48 (c / 2)).toNat
  omega

theorem alignedCoef_eq (w : Word) (d : Nat) : alignedCoef w d = signedCoef (fpSign w) (fpCoef w / 2 ^ d) := rfl

theorem alignedCoef_fpNegate (w : Word) (d : Nat) : alignedCoef (fpNegate w) d = -alignedCoef w d := by
  rw [alignedCoef_eq, alignedCoef_eq, fpSign_fpNegate, fpCoef_fpNegate]
  cases fpSign w <;> simp [signedCoef]

theorem sumOf_iff (a b : Word) (r : FPRaw) : SumOf a b r ↔
    SumAt (max (fpExp a) (fpExp b)) (alignedCoef a (max (fpExp a) (fpExp b) - fpExp a)
      + alignedCoef b (max (fpExp a) (fpExp b) - fpExp b)) r := Iff.rfl

/-- `fadd_ref` is R313's algorithm. -/
theorem sumOf_faddRef (a b : Word) : SumOf a b (faddRef a b) := by
  rw [sumOf_iff, alignedCoef_eq, alignedCoef_eq, faddRef]
  dsimp only
  generalize max (fpExp a) (fpExp b) = x
  have hca : fpCoef a / 2 ^ (x - fpExp a) < 2 ^ 48 := (Nat.div_le_self _ _).trans_lt (fpCoef_lt a)
  have hcb : fpCoef b / 2 ^ (x - fpExp b) < 2 ^ 48 := (Nat.div_le_self _ _).trans_lt (fpCoef_lt b)
  generalize fpCoef a / 2 ^ (x - fpExp a) = ca at hca ⊢
  generalize fpCoef b / 2 ^ (x - fpExp b) = cb at hcb ⊢
  generalize fpSign a = sa
  generalize fpSign b = sb
  by_cases hs : sa = sb
  · subst hs
    rw [if_pos rfl, signedCoef_add]
    by_cases hcarry : 2 ^ 48 ≤ ca + cb
    · rw [if_pos hcarry]
      exact sumAt_faddNormal_carry sa x hcarry (by omega)
    · rw [if_neg hcarry]
      exact sumAt_faddNormal sa x (Nat.not_le.mp hcarry)
  · obtain rfl : sb = !sa := Bool.eq_not_iff.mpr (Ne.symm hs)
    rw [if_neg hs]
    by_cases hle : cb ≤ ca
    · rw [if_pos hle, signedCoef_sub sa hle]
      exact sumAt_faddNormal sa x (by omega)
    · have hdiff := signedCoef_sub (!sa) (Nat.le_of_not_le hle)
      rw [Bool.not_not] at hdiff
      rw [if_neg hle, Int.add_comm, hdiff]
      exact sumAt_faddNormal (!sa) x (by omega)

/-- Operands that differ in the sign alone have the sum zero. -/
theorem sumOf_fpNegate (a : Word) : SumOf a (fpNegate a) rawZero := by
  rw [sumOf_iff, fpExp_fpNegate, alignedCoef_fpNegate, SumAt, if_pos (by omega)]

/-- A sum is normalized unless it is zero. -/
theorem SumOf.normalized {a b : Word} {r : FPRaw} (h : SumOf a b r) : r = rawZero ∨ 2 ^ 47 ≤ r.coef.toNat := by
  rw [sumOf_iff, SumAt] at h
  split at h
  · exact .inl h
  · exact .inr h.2.1

/-- R313 (2), (3): what the implementation gives is confined to. -/
theorem faddConfine_normalized (a b : Word) (r : FPRaw) : (faddConfine a b r).coef = 0 ∧
      (isNegZero a = false → isNegZero b = false → faddConfine a b r = rawZero) ∨
    2 ^ 47 ≤ (faddConfine a b r).coef.toNat := by
  rw [faddConfine]
  split
  · rename_i hcoef
    split
    · rename_i hnz
      exact .inl ⟨hcoef, fun ha hb => by rw [ha, hb] at hnz; cases hnz⟩
    · exact .inl ⟨rfl, fun _ _ => rfl⟩
  · refine .inr ?_
    rw [BitVec.toNat_or]
    exact Nat.right_le_or

/-- `FPConfig.fadd` keeps R313's and R325's constraints. -/
theorem sumOk_fadd (a b : Word) : SumOk a b (fadd a b) := by
  have hzero : (0 : BitVec 48).toNat = 0 := rfl
  by_cases hneg : b = fpNegate a
  · rw [fadd, if_pos hneg]
    exact ⟨fun _ _ _ _ => hneg ▸ sumOf_fpNegate a, fun h => absurd rfl h, fun _ _ _ => rfl, fun _ => rfl⟩
  have hopposite : b = a ^^^ BitVec.ofNat 64 (2 ^ 63) → fadd a b = rawZero := fun h => absurd h hneg
  by_cases hfixed : (!isNegZero a && !isNegZero b && addInRange a && addInRange b) = true
  · have hsum : SumOf a b (fadd a b) := by
      rw [fadd, if_neg hneg, if_pos hfixed]
      exact sumOf_faddRef a b
    refine ⟨fun _ _ _ _ => hsum, fun hne => ?_, fun hc _ _ => ?_, hopposite⟩
    · exact hsum.normalized.resolve_left fun h => hne (by rw [h]; rfl)
    · refine hsum.normalized.resolve_right ?_
      rw [hc, hzero]
      omega
  · have hconf := faddConfine_normalized a b (Config.fadd a b)
    have hfree : fadd a b = faddConfine a b (Config.fadd a b) := by rw [fadd, if_neg hneg, if_neg hfixed]
    rw [← hfree] at hconf
    refine ⟨fun ha hb hra hrb => ?_, fun hne => ?_, fun hc ha hb => ?_, hopposite⟩
    · exact absurd (by rw [ha, hb, hra, hrb]; rfl) hfixed
    · exact hconf.resolve_left fun h => hne h.1
    · refine (hconf.resolve_right ?_).2 ha hb
      rw [hc, hzero]
      omega

/-- Settles O35: both directions of the add unit are `fadd` under the range check. -/
theorem floatSums : Obligations.FloatSums := by
  intro s i j k neg sum
  have hadd (a b : Word) : sum a b (addWord a b).1 (addWord a b).2 := ⟨fadd a b, sumOk_fadd a b, rangeChecked_rangeAm _⟩
  have hsub (a b : Word) : sum a (neg b) (subWord a b).1 (subWord a b).2 :=
    ⟨fadd a (fpNegate b), sumOk_fadd a (fpNegate b), rangeChecked_rangeAm _⟩
  exact ⟨givesSFp_scalarFp s i _ (hadd _ _), givesSFp_scalarFp s i _ (hsub _ _), fun hvl =>
    ⟨givesVFp_vectorFp s i _ _ hvl fun _ _ => hadd _ _, givesVFp_vectorFp s i _ _ hvl fun _ _ => hadd _ _,
      givesVFp_vectorFp s i _ _ hvl fun _ _ => hsub _ _, givesVFp_vectorFp s i _ _ hvl fun _ _ => hsub _ _⟩⟩

end Sys2Proof.Machine
end

section
/-! Floating-point products (44_floating_point.md R314 to R316, R330 to R339) and integer products (R335): each form
keeps the constraints of its rule, for operands in either order. -/

namespace Sys2Proof.Machine

open Sys2Proof

/-! ## Operands -/

theorem bothNormal_iff (a b : Word) : bothNormal a b = true ↔ ¬ SomeUnnormal a b := by
  simp [bothNormal, isNormal, SomeUnnormal, not_or]

theorem mulFixed_iff (a b : Word) : mulFixed a b = true ↔ BothNormal a b := by
  simp [mulFixed, bothNormal, isNormal, BothNormal, and_assoc]

theorem bothZeroExp_iff (a b : Word) : bothZeroExp a b = true ↔ fpExp a = 0 ∧ fpExp b = 0 := by simp [bothZeroExp]

theorem BothNormal.not_someUnnormal {a b : Word} (h : BothNormal a b) : ¬ SomeUnnormal a b := fun hu => by
  obtain ⟨-, -, ha, hb⟩ := h
  rcases hu with hu | hu <;> omega

theorem coefProduct_lt (a b : Word) : coefProduct a b < 2 ^ 96 :=
  lt_of_lt_of_eq (b := 2 ^ 48 * 2 ^ 48) (Nat.mul_lt_mul'' (fpCoef_lt a) (fpCoef_lt b)) (by norm_num)

/-- The product of normalized coefficients has 95 or 96 bits. -/
theorem coefProduct_of_normal {a b : Word} (h : ¬ SomeUnnormal a b) : 2 ^ 94 ≤ coefProduct a b := by
  rw [SomeUnnormal, not_or, Nat.not_lt, Nat.not_lt] at h
  exact le_of_eq_of_le (b := 2 ^ 47 * 2 ^ 47) (by norm_num) (Nat.mul_le_mul h.1 h.2)

theorem coefProduct_of_unnormal {a b : Word} (h : SomeUnnormal a b) : coefProduct a b < 2 ^ 95 := by
  rcases h with h | h
  · exact lt_of_lt_of_eq (b := 2 ^ 47 * 2 ^ 48) (Nat.mul_lt_mul'' h (fpCoef_lt b)) (by norm_num)
  · exact lt_of_lt_of_eq (b := 2 ^ 48 * 2 ^ 47) (Nat.mul_lt_mul'' (fpCoef_lt a) h) (by norm_num)

theorem coefProduct_eq_zero {a b : Word} : coefProduct a b = 0 ↔ fpCoef a = 0 ∨ fpCoef b = 0 := Nat.mul_eq_zero

/-- The sign that `mulSign` gives: the rule of R314 (1), and a negative zero only as R310 and R314 have it. -/
theorem mulSign_of_exps {a b : Word} (free zero : Bool) (ha : fpExp a ≠ 0) (hb : fpExp b ≠ 0) :
    mulSign a b free zero = (fpSign a ^^ fpSign b) := by
  rw [mulSign, if_pos (by simp [ha, hb])]

theorem negZero_of_mulSign {a b : Word} {free : Bool} (h : mulSign a b free true = true) :
    (fpExp a ≠ 0 ∧ fpExp b ≠ 0) ∨ isNegZero a = true ∨ isNegZero b = true := by
  rw [mulSign] at h
  split at h
  · rename_i he
    exact .inl (by simpa using he)
  · exact .inr (by simpa using (Bool.and_eq_true_iff.mp h).2)

/-! ## Exponents and kept bits -/

theorem shiftedExp_mulExpOf (a b : Word) (shift sign : Bool) (c : BitVec 48) :
    ShiftedExp a b shift { sign := sign, exp := mulExpOf a b shift, coef := c } := by
  cases shift <;> simp [ShiftedExp, mulExpOf, mulExp]

theorem WithinOne.refl (k : Nat) : WithinOne k k := ⟨k.le_succ, k.le_succ⟩

/-- A choice is within one unit of the kept value, and no greater than it unless that stays below `top`. -/
theorem withinOne_some {kept top c : Nat} {d : BitVec 2} (h : withinOne kept top d = some c) :
    WithinOne c kept ∧ (c ≤ kept ∨ c < top) := by
  rw [withinOne] at h
  split at h
  · split at h
    · obtain rfl := Option.some.inj h
      exact ⟨⟨le_rfl, by omega⟩, .inr ‹_›⟩
    · cases h
  · obtain rfl := Option.some.inj h
    exact ⟨⟨by omega, by omega⟩, .inl (Nat.sub_le _ _)⟩
  · obtain rfl := Option.some.inj h
    exact ⟨.refl _, .inl le_rfl⟩

theorem withinOne_none {kept top : Nat} {d : BitVec 2} (h : withinOne kept top d = none) : ¬ kept + 1 < top := by
  rw [withinOne] at h
  split at h
  · split at h
    · cases h
    · assumption
  · cases h
  · cases h

theorem nearBelow_spec {k top : Nat} (d : BitVec 2) (hk : k ≤ top) (htop : 0 < top) :
    WithinOne (nearBelow k top d) k ∧ nearBelow k top d < top := by
  have hnear : WithinOne ((withinOne k top d).getD k) k := by
    cases h : withinOne k top d with
    | none => exact .refl k
    | some c => exact (withinOne_some h).1
  obtain ⟨hle, hge⟩ := hnear
  rw [nearBelow]
  exact ⟨⟨by omega, by omega⟩, by omega⟩

theorem near48_spec {k : Nat} (d : BitVec 2) (hk : k < 2 ^ 48) : WithinOne (near48 k d) k ∧ near48 k d < 2 ^ 48 := by
  rw [near48]
  cases h : withinOne k (2 ^ 48) d with
  | none => exact ⟨.refl k, hk⟩
  | some c =>
    obtain ⟨hnear, hlt⟩ := withinOne_some h
    exact ⟨hnear, hlt.elim (·.trans_lt hk) id⟩

theorem ofNat48_toNat {c : Nat} (h : c < 2 ^ 48) : (BitVec.ofNat 48 c).toNat = c := by
  rw [BitVec.toNat_ofNat]
  exact Nat.mod_eq_of_lt h

/-- The kept bits of a product: its upper 48, or the 48 after the one-place shift (R314 (2)). -/
def keptBits (a b : Word) : Nat := coefProduct a b / 2 ^ mulDropped a b

/-- The product bits that are dropped. -/
def droppedBits (a b : Word) : Nat := coefProduct a b % 2 ^ mulDropped a b

theorem keptBits_lt (a b : Word) : keptBits a b < 2 ^ 48 := by
  have hp := coefProduct_lt a b
  rw [keptBits, mulDropped, mulShift]
  change coefProduct a b / 2 ^ (if decide (coefProduct a b < 2 ^ 95) = true then 47 else 48) < 2 ^ 48
  split
  · rename_i h
    have h := of_decide_eq_true h
    omega
  · omega

/-- The kept bits as the relation `ProductOf` writes them. -/
theorem productOf_iff (a b : Word) (exact : Bool → Prop) (r : FPRaw) : ProductOf a b exact r ↔
    (droppedBits a b = 0 → exact (mulShift a b) → r.coef.toNat = keptBits a b) ∧
    (keptBits a b + 1 < 2 ^ 48 ∨ (droppedBits a b = 0 ∧ exact (mulShift a b)) →
      ShiftedExp a b (mulShift a b) r ∧ WithinOne r.coef.toNat (keptBits a b)) := by
  have hshift : mulShift a b = decide (coefProduct a b < 2 ^ 95) := rfl
  rw [ProductOf, keptBits, droppedBits, mulDropped, hshift]
  cases decide (coefProduct a b < 2 ^ 95) <;> exact Iff.rfl

/-! ## Products that the rules leave free -/

theorem looseCoef_lt (a b : Word) (shift : Bool) (c : BitVec 48) : looseCoef a b shift c.toNat < 2 ^ 48 := by
  have hc := c.isLt
  rw [looseCoef]
  split
  · positivity
  · split
    · exact hc
    · exact (Nat.min_le_left _ _).trans_lt hc

/-- R311: with an operand that is not normalized the coefficient is below the bound of `unnormalTop`. -/
theorem looseCoef_le {a b : Word} (h : SomeUnnormal a b) (shift : Bool) (c : Nat) :
    looseCoef a b shift c ≤ unnormalTop a b shift := by
  rw [looseCoef]
  split
  · exact Nat.zero_le _
  · rw [if_neg (mt (bothNormal_iff a b).mp (not_not.mpr h))]
    exact Nat.min_le_right _ _

theorem unnormalTop_lt (a b : Word) (shift : Bool) : unnormalTop a b shift < 2 ^ 47 := by
  rw [unnormalTop]
  split <;> omega

section
variable (a b : Word) (shift : Bool) (r : FPRaw)

theorem mulLoose_coef : (mulLoose a b shift r).coef.toNat = looseCoef a b shift r.coef.toNat :=
  ofNat48_toNat (looseCoef_lt a b shift r.coef)

theorem productAny_mulLoose : ProductAny a b (mulLoose a b shift r) := by
  have hcoef := mulLoose_coef a b shift r
  refine ⟨fun ha hb => mulSign_of_exps _ _ ha hb, fun hz => ?_, fun hu => ?_, fun hz hs => ?_⟩
  · apply BitVec.eq_of_toNat_eq
    rw [hcoef, looseCoef, if_pos hz]
    rfl
  · rw [hcoef]
    exact (looseCoef_le hu shift _).trans_lt (unnormalTop_lt a b shift)
  · have hc : looseCoef a b shift r.coef.toNat = 0 := by rw [← hcoef, hz]; rfl
    change mulSign a b r.sign (looseCoef a b shift r.coef.toNat == 0) = true at hs
    rw [hc] at hs
    exact negZero_of_mulSign hs

theorem shiftedExp_mulLoose : ShiftedExp a b shift (mulLoose a b shift r) := shiftedExp_mulExpOf a b shift _ _

theorem shiftedOnce_mulLoose : ShiftedOnce a b (mulLoose a b shift r) := fun hu ha hb => by
  refine ⟨shift, shiftedExp_mulLoose a b shift r, ?_⟩
  rw [mulLoose_coef]
  refine (looseCoef_le hu shift _).trans ?_
  rw [unnormalTop, if_pos (by simp [ha, hb])]
  exact Nat.min_le_right _ _

end

/-! ## Products that the rules fix -/

section
variable {a b : Word} (h : BothNormal a b)
include h

/-- With nonzero exponent fields and normalized operands the sign rule is all that `ProductAny` asks. -/
theorem productAny_of_normal {r : FPRaw} (hs : r.sign = (fpSign a ^^ fpSign b)) : ProductAny a b r := by
  obtain ⟨ha, hb, hna, hnb⟩ := h
  refine ⟨fun _ _ => hs, fun hz => ?_, fun hu => ?_, fun _ _ => .inl ⟨ha, hb⟩⟩
  · rcases hz with hz | hz <;> omega
  · rcases hu with hu | hu <;> omega

theorem shiftedOnce_of_normal (r : FPRaw) : ShiftedOnce a b r := fun hu => absurd hu h.not_someUnnormal

end

/-- A coefficient that is the kept bits where it has to be, and within one of them otherwise. -/
theorem productOf_of_within {a b : Word} {exact : Bool → Prop} {sign : Bool} {c : Nat}
    (hc : WithinOne c (keptBits a b) ∧ c < 2 ^ 48)
    (hexact : droppedBits a b = 0 → exact (mulShift a b) → c = keptBits a b) :
    ProductOf a b exact { sign := sign, exp := mulFixedExp a b, coef := BitVec.ofNat 48 c } := by
  rw [productOf_iff]
  refine ⟨fun hz he => ?_, fun _ => ⟨shiftedExp_mulExpOf a b _ _ _, ?_⟩⟩
  · exact (ofNat48_toNat hc.2).trans (hexact hz he)
  · exact (congrArg (WithinOne · _) (ofNat48_toNat hc.2)).mpr hc.1

/-- Where the kept bits are all ones and a carry would leave the coefficient, nothing more is asked. -/
theorem productOf_of_carry {a b : Word} {exact : Bool → Prop} {r : FPRaw} (hcarry : ¬ keptBits a b + 1 < 2 ^ 48)
    (hrest : ¬ (droppedBits a b = 0 ∧ exact (mulShift a b))) : ProductOf a b exact r :=
  (productOf_iff a b exact r).mpr
    ⟨fun hz he => absurd ⟨hz, he⟩ hrest, fun hor => absurd hor (not_or.mpr ⟨hcarry, hrest⟩)⟩

/-! ## The unrounded product (R314) -/

/-- The coefficient that R314 (2), (4) and R315 (2) allow when they fix the product: none for a carry out of it. -/
def fixedCoef (a b : Word) (isExact : Prop) [Decidable isExact] (d : BitVec 2) : Option Nat :=
  if isExact then some (keptBits a b) else withinOne (keptBits a b) (2 ^ 48) d

theorem fixedCoef_some {a b : Word} {isExact : Prop} [Decidable isExact] {d : BitVec 2} {c : Nat}
    (h : fixedCoef a b isExact d = some c) :
    (WithinOne c (keptBits a b) ∧ c < 2 ^ 48) ∧ (isExact → c = keptBits a b) := by
  rw [fixedCoef] at h
  split at h
  · obtain rfl := Option.some.inj h
    exact ⟨⟨.refl _, keptBits_lt a b⟩, fun _ => rfl⟩
  · obtain ⟨hnear, hlt⟩ := withinOne_some h
    exact ⟨⟨hnear, hlt.elim (·.trans_lt (keptBits_lt a b)) id⟩, fun he => absurd he ‹_›⟩

theorem fixedCoef_none {a b : Word} {isExact : Prop} [Decidable isExact] {d : BitVec 2}
    (h : fixedCoef a b isExact d = none) : ¬ keptBits a b + 1 < 2 ^ 48 ∧ ¬ isExact := by
  rw [fixedCoef] at h
  split at h
  · cases h
  · exact ⟨withinOne_none h, ‹_›⟩

theorem fmulOrdered_of_normal {a b : Word} (h : BothNormal a b) : fmulOrdered a b =
    match fixedCoef a b (droppedBits a b = 0) (Config.fmulDelta a b) with
    | some c => { sign := mulSign a b false false, exp := mulFixedExp a b, coef := BitVec.ofNat 48 c }
    | none => mulLoose a b (Config.fmulBorrow a b) (Config.fmul a b) := by
  rw [fmulOrdered]
  exact if_pos ((mulFixed_iff a b).mpr h)

theorem fmulOrdered_of_not_normal {a b : Word} (h : ¬ BothNormal a b) :
    fmulOrdered a b = mulLoose a b (Config.fmulBorrow a b) (Config.fmul a b) := by
  rw [fmulOrdered]
  exact if_neg (mt (mulFixed_iff a b).mp h)

theorem productOk_fmulOrdered (a b : Word) : ProductOk a b (fmulOrdered a b) := by
  by_cases h : BothNormal a b
  · rw [fmulOrdered_of_normal h]
    cases hc : fixedCoef a b (droppedBits a b = 0) (Config.fmulDelta a b) with
    | some c =>
      obtain ⟨hwithin, hexact⟩ := fixedCoef_some hc
      exact ⟨productAny_of_normal h (mulSign_of_exps _ _ h.1 h.2.1),
        fun _ => productOf_of_within hwithin fun hz _ => hexact hz,
        shiftedOnce_of_normal h _, _, shiftedExp_mulExpOf a b (mulShift a b) _ _⟩
    | none =>
      obtain ⟨hcarry, hrest⟩ := fixedCoef_none hc
      exact ⟨productAny_mulLoose _ _ _ _, fun _ => productOf_of_carry hcarry fun hz => hrest hz.1,
        shiftedOnce_mulLoose _ _ _ _, _, shiftedExp_mulLoose _ _ _ _⟩
  · rw [fmulOrdered_of_not_normal h]
    exact ⟨productAny_mulLoose _ _ _ _, fun hn => absurd hn h, shiftedOnce_mulLoose _ _ _ _, _,
      shiftedExp_mulLoose _ _ _ _⟩

/-! ## The rounded product (R315) -/

theorem fmulROrdered_of_normal {a b : Word} (h : BothNormal a b) : fmulROrdered a b =
    match fixedCoef a b (droppedBits a b = 0 ∧ mulShift a b = false) (Config.fmulRDelta a b) with
    | some c => { sign := mulSign a b false false, exp := mulFixedExp a b, coef := BitVec.ofNat 48 c }
    | none => { Config.fmulR a b with sign := mulSign a b false false } := by
  rw [fmulROrdered]
  exact if_pos ((mulFixed_iff a b).mpr h)

theorem fmulROrdered_of_not_normal {a b : Word} (h : ¬ BothNormal a b) :
    fmulROrdered a b = mulLoose a b (Config.fmulRBorrow a b) (Config.fmulR a b) := by
  rw [fmulROrdered]
  exact if_neg (mt (mulFixed_iff a b).mp h)

theorem roundedOk_fmulROrdered (a b : Word) : RoundedOk a b (fmulROrdered a b) := by
  by_cases h : BothNormal a b
  · have hsign := mulSign_of_exps false false h.1 h.2.1
    rw [fmulROrdered_of_normal h]
    cases hc : fixedCoef a b (droppedBits a b = 0 ∧ mulShift a b = false) (Config.fmulRDelta a b) with
    | some c =>
      obtain ⟨hwithin, hexact⟩ := fixedCoef_some hc
      exact ⟨productAny_of_normal h hsign, fun _ => productOf_of_within hwithin fun hz hs => hexact ⟨hz, hs⟩,
        shiftedOnce_of_normal h _, fun hn => absurd h hn⟩
    | none =>
      obtain ⟨hcarry, hrest⟩ := fixedCoef_none hc
      exact ⟨productAny_of_normal h hsign, fun _ => productOf_of_carry hcarry hrest, shiftedOnce_of_normal h _,
        fun hn => absurd h hn⟩
  · rw [fmulROrdered_of_not_normal h]
    exact ⟨productAny_mulLoose _ _ _ _, fun hn => absurd hn h, shiftedOnce_mulLoose _ _ _ _,
      fun _ => ⟨_, shiftedExp_mulLoose _ _ _ _⟩⟩

/-! ## The half-precision product (R316) -/

/-- The upper 29 bits of a product after one place of shift or none. -/
def upperBits (a b : Word) (shift : Bool) : Nat :=
  if shift then coefProduct a b / 2 ^ 66 else coefProduct a b / 2 ^ 67

theorem halfCoef_toNat {c : Nat} (h : c < 2 ^ 29) : (halfCoef c).toNat = c * 2 ^ 19 := ofNat48_toNat (by omega)

theorem halfCoef_div {c : Nat} (h : c < 2 ^ 29) : (halfCoef c).toNat / 2 ^ 19 = c := by
  rw [halfCoef_toNat h]
  omega

/-- The 29 kept bits of a product of normalized coefficients. -/
theorem half_kept_eq (a b : Word) :
    fpCoef a * fpCoef b / 2 ^ (mulDropped a b + 19) = upperBits a b (mulShift a b) := by
  rw [mulDropped, upperBits]
  cases mulShift a b <;> rfl

theorem upperBits_mulShift_lt (a b : Word) : upperBits a b (mulShift a b) < 2 ^ 29 := by
  have hp := coefProduct_lt a b
  have hshift : mulShift a b = decide (coefProduct a b < 2 ^ 95) := rfl
  rw [upperBits, hshift]
  split
  · rename_i h
    have h := of_decide_eq_true h
    omega
  · omega

/-- The 29 bits of a product that R316 does not fix as one of normalized operands with nonzero exponent fields. -/
def halfLooseBits (a b : Word) : Nat :=
  if coefProduct a b = 0 then 0
  else if bothNormal a b then nearBelow (upperBits a b (mulShift a b)) (2 ^ 29) (Config.fmulHDelta a b)
  else nearBelow (upperBits a b (halfShift a b)) (2 ^ 28) (Config.fmulHDelta a b)

/-- Whether such a product is shifted one place. -/
def halfLooseShift (a b : Word) : Bool := if bothNormal a b then Config.fmulHBorrow a b else halfShift a b

theorem halfLoose_eq (a b : Word) (free : Bool) : halfLoose a b free =
    { sign := mulSign a b free (halfLooseBits a b == 0), exp := mulExpOf a b (halfLooseShift a b)
      coef := halfCoef (halfLooseBits a b) } := by
  have hshift : fpCoef a * fpCoef b / 2 ^ (if halfShift a b = true then 66 else 67)
      = upperBits a b (halfShift a b) := by
    rw [upperBits]
    cases halfShift a b <;> rfl
  simp only [halfLoose, half_kept_eq, hshift]
  rfl

theorem halfLooseBits_of_unnormal {a b : Word} (h : SomeUnnormal a b) :
    WithinOne (halfLooseBits a b) (upperBits a b (halfShift a b)) ∧ halfLooseBits a b < 2 ^ 28 := by
  have hp := coefProduct_of_unnormal h
  have hk : upperBits a b (halfShift a b) ≤ 2 ^ 28 := by
    rw [upperBits]
    split
    · rename_i hshift
      simp only [halfShift, Bool.and_eq_true, decide_eq_true_eq] at hshift
      exact hshift.2
    · omega
  rw [halfLooseBits]
  split
  · rename_i hz
    rw [upperBits, hz]
    exact ⟨⟨Nat.zero_le _, by simp⟩, by positivity⟩
  · rw [if_neg (mt (bothNormal_iff a b).mp (not_not.mpr h))]
    exact nearBelow_spec _ hk (by positivity)

theorem halfLooseBits_of_normal {a b : Word} (h : ¬ SomeUnnormal a b) :
    WithinOne (halfLooseBits a b) (upperBits a b (mulShift a b)) ∧ halfLooseBits a b < 2 ^ 29 := by
  have hp := coefProduct_of_normal h
  rw [halfLooseBits, if_neg (by omega), if_pos ((bothNormal_iff a b).mpr h)]
  exact nearBelow_spec _ (upperBits_mulShift_lt a b).le (by positivity)

theorem halfLooseBits_lt (a b : Word) : halfLooseBits a b < 2 ^ 29 := by
  by_cases h : SomeUnnormal a b
  · exact (halfLooseBits_of_unnormal h).2.trans (by norm_num)
  · exact (halfLooseBits_of_normal h).2

theorem productAny_halfLoose (a b : Word) (free : Bool) : ProductAny a b (halfLoose a b free) := by
  have hcoef : (halfLoose a b free).coef.toNat = halfLooseBits a b * 2 ^ 19 := by
    rw [halfLoose_eq]
    exact halfCoef_toNat (halfLooseBits_lt a b)
  refine ⟨fun ha hb => ?_, fun hz => ?_, fun hu => ?_, fun hz hs => ?_⟩
  · rw [halfLoose_eq]
    exact mulSign_of_exps _ _ ha hb
  · apply BitVec.eq_of_toNat_eq
    rw [hcoef, halfLooseBits, if_pos (coefProduct_eq_zero.mpr hz)]
    rfl
  · have hlt := (halfLooseBits_of_unnormal hu).2
    omega
  · have hbits : halfLooseBits a b = 0 := by
      rw [hz] at hcoef
      change 0 = _ at hcoef
      omega
    rw [halfLoose_eq, hbits] at hs
    exact negZero_of_mulSign hs

theorem fmulHOrdered_of_normal {a b : Word} (h : BothNormal a b) : fmulHOrdered a b =
    { sign := mulSign a b false false, exp := mulFixedExp a b
      coef := halfCoef (nearBelow (upperBits a b (mulShift a b)) (2 ^ 29) (Config.fmulHDelta a b)) } := by
  rw [fmulHOrdered, if_pos ((mulFixed_iff a b).mpr h)]
  simp only [half_kept_eq]

theorem fmulHOrdered_of_not_normal {a b : Word} (h : ¬ BothNormal a b) :
    fmulHOrdered a b = halfLoose a b (Config.fmulHSign a b) := by
  rw [fmulHOrdered, if_neg (mt (mulFixed_iff a b).mp h)]

theorem halfOk_fmulHOrdered (a b : Word) : HalfOk a b (fmulHOrdered a b) := by
  have hmod {c : Nat} (hc : c < 2 ^ 29) : (halfCoef c).toNat % 2 ^ 19 = 0 := by
    rw [halfCoef_toNat hc]
    exact Nat.mul_mod_left _ _
  by_cases h : BothNormal a b
  · obtain ⟨hwithin, hlt⟩ :=
      nearBelow_spec (Config.fmulHDelta a b) (upperBits_mulShift_lt a b).le (by positivity)
    rw [fmulHOrdered_of_normal h]
    generalize nearBelow (upperBits a b (mulShift a b)) (2 ^ 29) (Config.fmulHDelta a b) = c at hwithin hlt ⊢
    have hexp := shiftedExp_mulExpOf a b (mulShift a b) (mulSign a b false false) (halfCoef c)
    refine ⟨productAny_of_normal h (mulSign_of_exps _ _ h.1 h.2.1), hmod hlt, ⟨_, hexp⟩, fun _ => hexp, fun _ => ?_,
      fun hu => absurd hu h.not_someUnnormal⟩
    rw [halfCoef_div hlt]
    exact hwithin
  · have hlt := halfLooseBits_lt a b
    have hany := productAny_halfLoose a b (Config.fmulHSign a b)
    have hexp := shiftedExp_mulExpOf a b (halfLooseShift a b)
      (mulSign a b (Config.fmulHSign a b) (halfLooseBits a b == 0)) (halfCoef (halfLooseBits a b))
    rw [halfLoose_eq] at hany
    rw [fmulHOrdered_of_not_normal h, halfLoose_eq]
    refine ⟨hany, hmod hlt, ⟨_, hexp⟩, fun hn => absurd hn h, fun hn => ?_, fun hu => ⟨halfShift a b, ?_, ?_⟩⟩
    · rw [halfCoef_div hlt]
      exact (halfLooseBits_of_normal hn).1
    · rw [halfLooseShift, if_neg (mt (bothNormal_iff a b).mp (not_not.mpr hu))] at hexp ⊢
      exact hexp
    · rw [halfCoef_div hlt]
      exact (halfLooseBits_of_unnormal hu).1

/-! ## The order of the operands (R314 (3), R315, R316) -/

theorem mulOrder_cases (a b : Word) :
    (mulFirst a b = a ∧ mulSecond a b = b) ∨ (mulFirst a b = b ∧ mulSecond a b = a) := by
  rw [mulFirst, mulSecond]
  split
  · exact .inl ⟨rfl, rfl⟩
  · exact .inr ⟨rfl, rfl⟩

/-- The order is by value, whichever operand comes first in the instruction. -/
theorem mulOrder_comm (a b : Word) : mulFirst a b = mulFirst b a ∧ mulSecond a b = mulSecond b a := by
  rcases Nat.lt_trichotomy a.toNat b.toNat with h | h | h
  · simp [mulFirst, mulSecond, h.le, Nat.not_le.mpr h]
  · obtain rfl := BitVec.eq_of_toNat_eq h
    exact ⟨rfl, rfl⟩
  · simp [mulFirst, mulSecond, h.le, Nat.not_le.mpr h]

theorem mulFirst_comm (a b : Word) : mulFirst a b = mulFirst b a := (mulOrder_comm a b).1

theorem mulSecond_comm (a b : Word) : mulSecond a b = mulSecond b a := (mulOrder_comm a b).2

/-- A property of a product whose rule does not tell the operands apart, shown for ordered operands. -/
theorem of_ordered {ok : Word → Word → FPRaw → Prop} {f : Word → Word → FPRaw} (hf : ∀ a b, ok a b (f a b))
    (hsymm : ∀ a b r, ok a b r → ok b a r) (a b : Word) : ok a b (f (mulFirst a b) (mulSecond a b)) := by
  rcases mulOrder_cases a b with ⟨h1, h2⟩ | ⟨h1, h2⟩ <;> rw [h1, h2]
  · exact hf a b
  · exact hsymm b a _ (hf b a)

theorem coefProduct_comm (a b : Word) : coefProduct a b = coefProduct b a := Nat.mul_comm _ _

theorem someUnnormal_comm (a b : Word) : SomeUnnormal a b ↔ SomeUnnormal b a := Or.comm

theorem bothNormal_comm (a b : Word) : BothNormal a b ↔ BothNormal b a := by
  rw [BothNormal, BothNormal]
  tauto

theorem shiftedExp_comm (a b : Word) (shift : Bool) (r : FPRaw) : ShiftedExp a b shift r ↔ ShiftedExp b a shift r := by
  rw [ShiftedExp, ShiftedExp, Int.add_comm]

section
variable {a b : Word} {r : FPRaw}

theorem ProductAny.symm (h : ProductAny a b r) : ProductAny b a r := by
  obtain ⟨hsign, hzero, hunnormal, hneg⟩ := h
  exact ⟨fun hb ha => (hsign ha hb).trans (Bool.xor_comm _ _), fun hz => hzero hz.symm, fun hu => hunnormal hu.symm,
    fun hz hs => (hneg hz hs).imp And.symm Or.symm⟩

theorem ProductOf.symm {exact : Bool → Prop} (h : ProductOf a b exact r) : ProductOf b a exact r := by
  rw [ProductOf] at h ⊢
  rw [coefProduct_comm b a, Int.add_comm (fpExp b : Int)]
  exact h

theorem ShiftedOnce.symm (h : ShiftedOnce a b r) : ShiftedOnce b a r := fun hu hb ha => by
  obtain ⟨shift, he, hc⟩ := h hu.symm ha hb
  exact ⟨shift, (shiftedExp_comm a b shift r).mp he, coefProduct_comm a b ▸ hc⟩

theorem ProductOk.symm (h : ProductOk a b r) : ProductOk b a r := by
  obtain ⟨hany, hof, honce, shift, he⟩ := h
  exact ⟨hany.symm, fun hn => (hof ((bothNormal_comm b a).mp hn)).symm, honce.symm, shift,
    (shiftedExp_comm a b shift r).mp he⟩

theorem RoundedOk.symm (h : RoundedOk a b r) : RoundedOk b a r := by
  obtain ⟨hany, hof, honce, hexp⟩ := h
  refine ⟨hany.symm, fun hn => (hof ((bothNormal_comm b a).mp hn)).symm, honce.symm, fun hn => ?_⟩
  obtain ⟨shift, he⟩ := hexp (mt (bothNormal_comm a b).mp hn)
  exact ⟨shift, (shiftedExp_comm a b shift r).mp he⟩

theorem HalfOk.symm (h : HalfOk a b r) : HalfOk b a r := by
  rw [HalfOk] at h ⊢
  simp only [coefProduct_comm b a, someUnnormal_comm b a, bothNormal_comm b a, shiftedExp_comm b a] at h ⊢
  obtain ⟨hany, hrest⟩ := h
  exact ⟨hany.symm, hrest⟩

end

theorem productOk_fmul (a b : Word) : ProductOk a b (fmul a b) :=
  of_ordered productOk_fmulOrdered (fun _ _ _ => ProductOk.symm) a b

theorem roundedOk_fmulR (a b : Word) : RoundedOk a b (fmulR a b) :=
  of_ordered roundedOk_fmulROrdered (fun _ _ _ => RoundedOk.symm) a b

theorem halfOk_fmulH (a b : Word) : HalfOk a b (fmulH a b) :=
  of_ordered halfOk_fmulHOrdered (fun _ _ _ => HalfOk.symm) a b

/-! ## Two zero exponent fields (R335) -/

theorem integerProduct_intmul (a b d : Word) : IntegerProduct a b (intmul a b d) := by
  have hk : coefProduct a b / 2 ^ 48 < 2 ^ 48 := by
    have := coefProduct_lt a b
    omega
  obtain ⟨hnear, hlt⟩ := near48_spec (d.setWidth 2) hk
  change IntegerProduct a b (fpPack (fpSign a ^^ fpSign b) 0 (BitVec.ofNat 48
    (if intmulExact a b then coefProduct a b / 2 ^ 48 else near48 (coefProduct a b / 2 ^ 48) (d.setWidth 2))))
  rw [IntegerProduct, fpExp_fpPack, fpSign_fpPack, fpCoef_fpPack]
  by_cases hexact : intmulExact a b = true
  · rw [if_pos hexact, ofNat48_toNat hk]
    exact ⟨rfl, rfl, .refl _, fun _ _ => rfl⟩
  · rw [if_neg hexact, ofNat48_toNat hlt]
    exact ⟨rfl, rfl, hnear, fun ha hb => absurd (by rw [intmulExact, ha, hb]; rfl) hexact⟩

/-- The coefficient of a free product of two zero exponent fields. -/
theorem fpCoef_intLoose (a b w : Word) :
    fpCoef (intLoose a b w) = if bothNormal a b then fpCoef w else fpCoef w % 2 ^ 47 := by
  have hw := fpCoef_lt w
  rw [intLoose, fpCoef_fpPack, ofNat48_toNat]
  split <;> omega

theorem instanceProduct_intLoose (a b w : Word) : InstanceProduct a b (intLoose a b w) := by
  have hcoef := fpCoef_intLoose a b w
  refine ⟨fun hu => ?_, fun hz hs => ?_⟩
  · rw [hcoef, if_neg (mt (bothNormal_iff a b).mp (not_not.mpr hu))]
    exact Nat.mod_lt _ (by positivity)
  · rw [hz] at hcoef
    rw [intLoose, fpSign_fpPack, ← hcoef] at hs
    simpa using (Bool.and_eq_true_iff.mp hs).2

/-- R316, R331: the low 19 coefficient bits of a half-precision product are 0 with zero exponent fields too. -/
theorem halfInstanceProduct_intLoose (a b w : Word) :
    HalfInstanceProduct a b (intLoose a b (w >>> 19 <<< 19)) := by
  refine ⟨instanceProduct_intLoose a b _, ?_⟩
  have hlow : fpCoef (w >>> 19 <<< 19) % 2 ^ 19 = 0 := by
    rw [fpCoef, BitVec.extractLsb'_toNat, BitVec.toNat_shiftLeft, BitVec.toNat_ushiftRight, Nat.shiftLeft_eq]
    omega
  rw [fpCoef_intLoose]
  split <;> omega

/-! ## The multiply unit's words -/

/-- A word of the multiply unit: for two zero exponent fields the integer product or a free one, else a raw product
under the range check. -/
theorem productWord_of {zero : Word → Word → Word → Prop} {ok : Word → Word → FPRaw → Prop} {a b w : Word} {r : FPRaw}
    (hzero : zero a b w) (hok : ok a b r) :
    let x := if bothZeroExp a b then (w, false) else rangeAm r
    ProductWord zero ok a b x.1 x.2 := by
  intro x
  by_cases h : fpExp a = 0 ∧ fpExp b = 0
  · have hx : x = (w, false) := if_pos ((bothZeroExp_iff a b).mpr h)
    rw [ProductWord, if_pos h, hx]
    exact ⟨hzero, rfl⟩
  · have hx : x = rangeAm r := if_neg (mt (bothZeroExp_iff a b).mp h)
    rw [ProductWord, if_neg h, hx]
    exact ⟨r, hok, rangeChecked_rangeAm r⟩

section
variable (a b d : Word)

theorem productWord_mulWord :
    ProductWord IntegerProduct ProductOk a b (mulWord a b d).1 (mulWord a b d).2 :=
  productWord_of (integerProduct_intmul a b d) (productOk_fmul a b)

theorem productWord_mulWordR : ProductWord InstanceProduct RoundedOk a b (mulWordR a b).1 (mulWordR a b).2 :=
  productWord_of (instanceProduct_intLoose a b _) (roundedOk_fmulR a b)

theorem productWord_mulWordH : ProductWord HalfInstanceProduct HalfOk a b (mulWordH a b).1 (mulWordH a b).2 :=
  productWord_of (halfInstanceProduct_intLoose a b _) (halfOk_fmulH a b)

theorem bothZeroExp_comm : bothZeroExp a b = bothZeroExp b a := Bool.and_comm _ _

theorem intmulExact_comm : intmulExact a b = intmulExact b a := Bool.and_comm _ _

theorem mulWord_comm : mulWord a b d = mulWord b a d := by
  rw [mulWord, mulWord, bothZeroExp_comm, fmul, fmul, mulFirst_comm, mulSecond_comm, intmul, intmul, intmulExact_comm,
    Nat.mul_comm (fpCoef a), Bool.xor_comm]

theorem mulDraws_comm : mulDraws a b = mulDraws b a := by
  rw [mulDraws, mulDraws, bothZeroExp_comm, intmulExact_comm]

theorem intLoose_comm (w : Word) : intLoose a b w = intLoose b a w := by
  have hnormal : bothNormal a b = bothNormal b a := Bool.and_comm _ _
  simp only [intLoose, hnormal, Bool.or_assoc, Bool.or_comm (isNegZero a)]

theorem mulWordR_comm : mulWordR a b = mulWordR b a := by
  rw [mulWordR, mulWordR, bothZeroExp_comm, fmulR, fmulR, mulFirst_comm, mulSecond_comm, intLoose_comm]

theorem mulWordH_comm : mulWordH a b = mulWordH b a := by
  rw [mulWordH, mulWordH, bothZeroExp_comm, fmulH, fmulH, mulFirst_comm, mulSecond_comm, intLoose_comm]

end

/-! ## The statement -/

/-- 064: the product, with a draw passed over if it is an inexact integer product. -/
theorem givesSFp_sFmul (s : State) (i j k : BitVec 3) :
    GivesSFp (exec (.sFmul i j k) s) s i (ProductWord IntegerProduct ProductOk (s.sjVal j) (s.skVal k)) := by
  have hword := productWord_mulWord (s.sjVal j) (s.skVal k) (s.drawAt 0)
  have hexec : exec (.sFmul i j k) s = execSFmul i j k s := rfl
  rw [hexec, execSFmul, State.drawnIf]
  split
  · exact givesSFp_of s i _ 1 _ hword
  · exact givesSFp_of s i _ 0 _ hword

theorem sjVal_eq_skVal (s : State) {j : BitVec 3} (hj : j ≠ 0) : s.sjVal j = s.skVal j := by
  rw [s.sjVal_of_ne hj, s.skVal_of_ne hj]

theorem vectorMul_comm (s : State) (i : BitVec 3) (a b : BitVec 6 → Word) : s.vectorMul i a b = s.vectorMul i b a := by
  simp only [State.vectorMul, mulWord_comm, mulDraws_comm]

/-- Settles O36: the words of the multiply unit are `ProductWord`s, and do not depend on the order of the operands. -/
theorem floatProducts : Obligations.FloatProducts := by
  intro s i j k full rounded half
  refine ⟨givesSFp_sFmul s i j k, givesSFp_scalarFp s i _ (productWord_mulWordR _ _),
    givesSFp_scalarFp s i _ (productWord_mulWordH _ _), fun hvl => ?vectors, fun hj hk => ?scalarOrder,
    vectorMul_comm s i _ _, ?roundedOrder, ?halfOrder⟩
  case vectors =>
    exact ⟨givesVFp_vectorMul s i _ _ _ hvl fun _ _ => productWord_mulWord _ _ _,
      givesVFp_vectorMul s i _ _ _ hvl fun _ _ => productWord_mulWord _ _ _,
      givesVFp_vectorFp s i _ _ hvl fun _ _ => productWord_mulWordR _ _,
      givesVFp_vectorFp s i _ _ hvl fun _ _ => productWord_mulWordR _ _,
      givesVFp_vectorFp s i _ _ hvl fun _ _ => productWord_mulWordH _ _,
      givesVFp_vectorFp s i _ _ hvl fun _ _ => productWord_mulWordH _ _⟩
  case scalarOrder =>
    have hjk := sjVal_eq_skVal s hj
    have hkj := sjVal_eq_skVal s hk
    refine ⟨?_, congrArg (s.scalarFp i) ?_, congrArg (s.scalarFp i) ?_⟩
    · change execSFmul i j k s = execSFmul i k j s
      rw [execSFmul, execSFmul, hjk, hkj, mulWord_comm, mulDraws_comm]
    · rw [hjk, hkj, mulWordR_comm]
    · rw [hjk, hkj, mulWordH_comm]
  case roundedOrder => exact congrArg (s.vectorFp i) (funext fun _ => mulWordR_comm _ _)
  case halfOrder => exact congrArg (s.vectorFp i) (funext fun _ => mulWordH_comm _ _)

end Sys2Proof.Machine
end

section
/-! The reciprocal approximation (44_floating_point.md R318, R321) and the reciprocal iteration (R317). -/

namespace Sys2Proof.Machine

open Sys2Proof

/-! ## The operand taken as normalized (R318) -/

theorem fpSign_forceNormal (a : Word) : fpSign (forceNormal a) = fpSign a := by
  rw [fpSign, forceNormal, BitVec.getLsbD_or, fpSign]
  exact Bool.or_false _

theorem fpExp_forceNormal (a : Word) : fpExp (forceNormal a) = fpExp a := by
  rw [fpExp, forceNormal, BitVec.extractLsb'_or, fpExp]
  exact congrArg BitVec.toNat (BitVec.or_zero (x := a.extractLsb' 48 15))

/-- Bit 47 added where it is clear. -/
theorem fpCoef_forceNormal (a : Word) :
    fpCoef (forceNormal a) = if 2 ^ 47 ≤ fpCoef a then fpCoef a else fpCoef a + 2 ^ 47 := by
  have hor : fpCoef (forceNormal a) = fpCoef a ||| 2 ^ 47 := by
    rw [fpCoef, forceNormal, BitVec.extractLsb'_or, BitVec.toNat_or]
    rfl
  have hadd (c : Nat) (hc : c < 2 ^ 47) : c ||| 2 ^ 47 = c + 2 ^ 47 := by
    rw [Nat.or_comm, Nat.add_comm]
    exact (Nat.two_pow_add_eq_or_of_lt hc 1).symm
  have hlt := fpCoef_lt a
  rw [hor]
  split
  · have hsplit : fpCoef a = (fpCoef a - 2 ^ 47) ||| 2 ^ 47 := by
      rw [hadd _ (by omega)]
      omega
    rw [hsplit, Nat.or_assoc, Nat.or_self]
  · exact hadd _ (by omega)

theorem fpCoef_forceNormal_bounds (a : Word) : 2 ^ 47 ≤ fpCoef (forceNormal a) ∧ fpCoef (forceNormal a) < 2 ^ 48 := by
  have h := fpCoef_forceNormal a
  refine ⟨?_, fpCoef_lt _⟩
  split at h <;> omega

/-! ## The approximation (R318, R321) -/

theorem recipInRange_iff (a : Word) : recipInRange a = true ↔ 0o20002 ≤ fpExp a ∧ fpExp a ≤ 0o60001 :=
  decide_eq_true_iff

theorem recipOk_iff (a : Word) (r : FPRaw) : recipOk a r = true ↔
    r.sign = fpSign a ∧ 2 ^ 47 ≤ r.coef.toNat ∧
      ∃ e : Nat, r.exp + fpExp a = 0o100000 + e ∧ e ≤ 2 ∧
        2 ^ 96 < r.coef.toNat * fpCoef a * 2 ^ e + 2 ^ 67 ∧ r.coef.toNat * fpCoef a * 2 ^ e < 2 ^ 96 + 2 ^ 67 := by
  simp only [recipOk, Bool.and_eq_true, beq_iff_eq, decide_eq_true_eq, and_assoc]
  refine and_congr_right fun _ => and_congr_right fun _ =>
    ⟨fun ⟨he, hle, hbound⟩ => ?_, fun ⟨e, he, hle, hlo, hhi⟩ => ?_⟩
  · refine ⟨(r.exp + fpExp a - 0o100000).toNat, by omega, by omega, ?_⟩
    generalize r.coef.toNat * fpCoef a * 2 ^ (r.exp + fpExp a - 0o100000).toNat = p at hbound ⊢
    omega
  · obtain rfl : (r.exp + fpExp a - 0o100000).toNat = e := by omega
    generalize r.coef.toNat * fpCoef a * 2 ^ (r.exp + fpExp a - 0o100000).toNat = p at hlo hhi ⊢
    omega

/-- The quotient of 2^95 by a normalized coefficient other than the least is a normalized coefficient, and misses the
reciprocal by less than one place. -/
theorem recip_quotient {d : Nat} (hlo : 2 ^ 47 < d) (hhi : d < 2 ^ 48) :
    2 ^ 47 ≤ 2 ^ 95 / d ∧ 2 ^ 95 / d < 2 ^ 48 ∧ 2 ^ 95 / d * d ≤ 2 ^ 95 ∧ 2 ^ 95 < 2 ^ 95 / d * d + 2 ^ 48 := by
  have hpos : 0 < d := by omega
  refine ⟨(Nat.le_div_iff_mul_le hpos).mpr ?_, (Nat.div_lt_iff_lt_mul hpos).mpr ?_, Nat.div_mul_le_self _ _, ?_⟩
  · omega
  · omega
  · have hmod := Nat.mod_lt (2 ^ 95) hpos
    have hdiv := Nat.div_add_mod' (2 ^ 95) d
    omega

/-- The exact quotient keeps R318's constraints. -/
theorem recipOk_recipExact {a : Word} (hlo : 2 ^ 47 ≤ fpCoef a) : recipOk a (recipExact a) = true := by
  have hhi := fpCoef_lt a
  rw [recipOk_iff, recipExact]
  by_cases h : fpCoef a = 2 ^ 47
  · rw [if_pos h, h]
    have hcoef := ofNat48_toNat (c := 2 ^ 47) (by norm_num)
    rw [hcoef]
    exact ⟨rfl, le_rfl, 2, Int.sub_add_cancel 0o100002 _, le_rfl, by norm_num, by norm_num⟩
  · obtain ⟨hqlo, hqhi, hle, hlt⟩ := recip_quotient (by omega) hhi
    rw [if_neg h, ofNat48_toNat hqhi]
    exact ⟨rfl, hqlo, 1, Int.sub_add_cancel 0o100001 _, by decide, by omega, by omega⟩

/-- For an operand in range the approximation keeps R318's constraints. -/
theorem recipOk_frecip {a : Word} (h : recipInRange a = true) : recipOk (forceNormal a) (frecip a) = true := by
  have hrange : recipInRange (forceNormal a) = true := by
    rw [recipInRange_iff, fpExp_forceNormal, ← recipInRange_iff, h]
  rw [frecip]
  rw [hrange, Bool.true_and]
  by_cases hok : recipOk (forceNormal a) (Config.frecip (forceNormal a)) = true
  · rw [hok, if_neg (by decide)]
    exact hok
  · rw [if_pos (by simpa using hok)]
    exact recipOk_recipExact (fpCoef_forceNormal_bounds a).1

theorem recipOk_recipWord (a : Word) : RecipOk a (recipWord a).1 (recipWord a).2 := by
  by_cases h : recipInRange a = true
  · have hok := recipOk_frecip h
    obtain ⟨hsign, hnormal, e, he, hle, hlo, hhi⟩ := (recipOk_iff _ _).mp hok
    have hrange := (recipInRange_iff a).mp h
    have hword : recipWord a = (fpPack (frecip a).sign (frecip a).exp.toNat (frecip a).coef, false) := if_pos h
    rw [fpSign_forceNormal] at hsign
    rw [fpExp_forceNormal] at he
    rw [fpCoef_forceNormal] at hlo hhi
    rw [RecipOk, if_neg (by omega), hword]
    dsimp only
    rw [fpSign_fpPack, fpExp_fpPack, fpCoef_fpPack]
    exact ⟨rfl, hsign, hnormal, e, by omega, hlo, hhi⟩
  · have hrange := mt (recipInRange_iff a).mpr h
    have hword : recipWord a =
        (fpPack (frecip a).sign 0o60000 ((frecip a).coef &&& BitVec.ofNat 48 (2 ^ 47 - 1)), true) := if_neg h
    rw [RecipOk, if_pos (by omega), hword]
    dsimp only
    rw [fpExp_fpPack, fpCoef_fpPack, BitVec.toNat_and]
    exact ⟨rfl, rfl, Nat.and_lt_two_pow _ (by decide)⟩

/-! ## The iteration (R317) -/

theorem iterOperand_iff (w : Word) :
    iterOperand w = true ↔ 2 ^ 47 ≤ fpCoef w ∧ 0o20000 ≤ fpExp w ∧ fpExp w ≤ 0o57777 := by
  simp [iterOperand, isNormal]

/-- A number's product with its reciprocal approximation is within 2^67 units of 2^-96 of 1 (R318). -/
theorem near_one_of_recip {a b : Word} (ha : iterOperand a = true) (hb : iterOperand b = true)
    (h : a = (recipWord b).1) : ∃ e : Nat, fpExp a + fpExp b = 0o100000 + e ∧
      2 ^ 96 < coefProduct a b * 2 ^ e + 2 ^ 67 ∧ coefProduct a b * 2 ^ e < 2 ^ 96 + 2 ^ 67 := by
  obtain ⟨-, -, hexp⟩ := (iterOperand_iff a).mp ha
  obtain ⟨hnormal, -, -⟩ := (iterOperand_iff b).mp hb
  have hrecip := recipOk_recipWord b
  rw [← h, RecipOk] at hrecip
  split at hrecip
  · omega
  · simp only at hrecip
    obtain ⟨-, -, -, hnear⟩ := hrecip
    exact hnear

theorem near_one_of_iterMeant {a b : Word} (h : iterMeant a b = true) : ∃ e : Nat, fpExp a + fpExp b = 0o100000 + e ∧
      2 ^ 96 < coefProduct a b * 2 ^ e + 2 ^ 67 ∧ coefProduct a b * 2 ^ e < 2 ^ 96 + 2 ^ 67 := by
  simp only [iterMeant, Bool.and_eq_true, Bool.or_eq_true, beq_iff_eq] at h
  obtain ⟨⟨ha, hb⟩, h | h⟩ := h
  · exact near_one_of_recip ha hb h
  · rw [Nat.add_comm, coefProduct_comm]
    exact near_one_of_recip hb ha h

/-- The exact product of R317, by the sum of the unbiased exponents. -/
theorem unitProduct_eq {a b : Word} {e : Nat} (he : fpExp a + fpExp b = 0o100000 + e) :
    unitProduct a b = coefProduct a b * 2 ^ e := by
  rw [unitProduct, he, Nat.add_sub_cancel_left]
  rfl

theorem iterOk_iff (a b : Word) (r : FPRaw) : iterOk a b r = true ↔
    r.sign = false ∧ 2 ^ 47 ≤ r.coef.toNat ∧ ∃ x : Nat, x ≤ 1 ∧ r.exp = (0o40000 + x : Nat) ∧
      2 ^ 97 ≤ r.coef.toNat * 2 ^ (48 + x) + unitProduct a b + 2 ^ 49 ∧
      r.coef.toNat * 2 ^ (48 + x) + unitProduct a b ≤ 2 ^ 97 + 2 ^ 49 := by
  simp only [iterOk, Bool.and_eq_true, Bool.not_eq_true', decide_eq_true_eq, and_assoc]
  refine and_congr_right fun _ => and_congr_right fun _ => ⟨fun ⟨he, hbound⟩ => ?_, fun ⟨x, hx, he, hlo, hhi⟩ => ?_⟩
  · rcases he with he | he
    · rw [if_neg (by omega)] at hbound
      exact ⟨0, by decide, he, by rw [Nat.add_zero]; omega, by rw [Nat.add_zero]; omega⟩
    · rw [if_pos he] at hbound
      exact ⟨1, le_rfl, he, by omega, by omega⟩
  · obtain rfl | rfl : x = 0 ∨ x = 1 := by omega
    · rw [Nat.add_zero] at hlo hhi
      exact ⟨.inl he, by rw [if_neg (by omega)]; omega⟩
    · exact ⟨.inr he, by rw [if_pos (show r.exp = 0o40001 from he)]; omega⟩

/-- 2 minus the product, cut to the format, keeps R317's constraint. -/
theorem iterOk_iterExact {a b : Word} (h : iterMeant a b = true) : iterOk a b (iterExact a b) = true := by
  obtain ⟨e, he, hlo, hhi⟩ := near_one_of_iterMeant h
  rw [← unitProduct_eq he] at hlo hhi
  rw [iterOk_iff, iterExact]
  generalize unitProduct a b = p at hlo hhi ⊢
  by_cases ht : 2 ^ 96 ≤ 2 ^ 97 - p
  · have hcoef := ofNat48_toNat (c := (2 ^ 97 - p) / 2 ^ 49) (by omega)
    rw [if_pos ht]
    dsimp only
    rw [hcoef]
    exact ⟨rfl, by omega, 1, le_rfl, rfl, by omega, by omega⟩
  · have hcoef := ofNat48_toNat (c := (2 ^ 97 - p) / 2 ^ 48) (by omega)
    rw [if_neg ht]
    dsimp only
    rw [hcoef]
    exact ⟨rfl, by omega, 0, by decide, rfl, by omega, by omega⟩

theorem iterOk_fiter {a b : Word} (h : iterMeant a b = true) : iterOk a b (fiter a b) = true := by
  rw [fiter]
  rw [h, Bool.true_and]
  by_cases hok : iterOk a b (Config.fiter a b) = true
  · rw [hok, if_neg (by decide)]
    exact hok
  · rw [if_pos (by simpa using hok)]
    exact iterOk_iterExact h

/-- A positive normalized raw result near 1 is delivered as it is. -/
theorem rangeAm_of_near_one {r : FPRaw} {x : Nat} (hsign : r.sign = false) (hx : x ≤ 1)
    (hexp : r.exp = (0o40000 + x : Nat)) : rangeAm r = (fpPack false (0o40000 + x) r.coef, false) := by
  rw [rangeAm, if_neg (fun h => by omega), if_neg (by omega), if_neg (by omega), hexp, hsign]
  rfl

theorem iterOk_iterWord (a b : Word) : IterOk a b (iterWord a b).1 (iterWord a b).2 := by
  intro ha hb h
  have hmeant : iterMeant a b = true := by
    simp only [iterMeant, Bool.and_eq_true, Bool.or_eq_true, beq_iff_eq]
    exact ⟨⟨(iterOperand_iff a).mpr ha, (iterOperand_iff b).mpr hb⟩, h⟩
  obtain ⟨e, he, -, -⟩ := near_one_of_iterMeant hmeant
  obtain ⟨hsign, hnormal, x, hx, hexp, hlo, hhi⟩ := (iterOk_iff _ _ _).mp (iterOk_fiter hmeant)
  rw [unitProduct_eq he] at hlo hhi
  rw [iterWord, rangeAm_of_near_one hsign hx hexp]
  dsimp only
  rw [fpSign_fpPack, fpExp_fpPack, fpCoef_fpPack]
  exact ⟨rfl, rfl, hnormal, e, x, he, hx, by omega, hlo, hhi⟩

/-- Settles O37: the words of the approximation unit and of the iteration. -/
theorem reciprocalInstructions : Obligations.ReciprocalInstructions := by
  intro s i j k iter
  have hiter (a b : Word) : iter a b (iterWord a b).1 (iterWord a b).2 :=
    ⟨⟨fiter a b, rangeChecked_rangeAm _⟩, iterOk_iterWord a b⟩
  exact ⟨givesSFp_scalarFp s i _ (hiter _ _), givesSFp_scalarFp s i _ (recipOk_recipWord _), fun hvl =>
    ⟨givesVFp_vectorFp s i _ _ hvl fun _ _ => hiter _ _, givesVFp_vectorFp s i _ _ hvl fun _ _ => hiter _ _,
      givesVFp_vectorFp s i _ _ hvl fun _ _ => recipOk_recipWord _⟩⟩

end Sys2Proof.Machine
end

section
/-! The instructions that write one control bit of the CPU, or the record of references (42_memory_transfer.md R250 to
R256; 44_floating_point.md R322, R323; 49_monitor_mode.md R490, R491), and PASS (49 R472). -/

namespace Sys2Proof.Machine

open Sys2Proof

/-- What O21 says of an outcome: the next state has these mode bits, CBW, SBO and record of references; nothing else
differs but P, one parcel on. -/
def GivesControl (o : Out) (s : State) (m : Mode) (cbw sbo : Bool) (refs : List Ref) : Prop :=
  ∃ t, o = .next t ∧ Moved s t 1 ∧ SameBytes s t ∧
    t = { s with cpu := { s.cpu with p := t.cpu.p, m := m, cbw := cbw, sbo := sbo, refs := refs } }

section
variable (s : State)

/-- The four fields replaced together; each instruction below keeps all of them but one. -/
theorem givesControl_done (m : Mode) (cbw sbo : Bool) (refs : List Ref) :
    GivesControl ((s.withCpu { s.cpu with m := m, cbw := cbw, sbo := sbo, refs := refs }).done 1) s m cbw sbo refs :=
  ⟨_, rfl, moved_advance _ _ _ rfl, fun _ => rfl, rfl⟩

theorem givesControl_writeM (m : Mode) :
    GivesControl ((s.writeM m).done 1) s m s.cpu.cbw s.cpu.sbo s.cpu.refs :=
  givesControl_done s m s.cpu.cbw s.cpu.sbo s.cpu.refs

theorem givesControl_cbw (b : Bool) :
    GivesControl ((s.withCpu { s.cpu with cbw := b }).done 1) s s.cpu.m b s.cpu.sbo s.cpu.refs :=
  givesControl_done s s.cpu.m b s.cpu.sbo s.cpu.refs

theorem givesControl_sbo (b : Bool) :
    GivesControl ((s.withCpu { s.cpu with sbo := b }).done 1) s s.cpu.m s.cpu.cbw b s.cpu.refs :=
  givesControl_done s s.cpu.m s.cpu.cbw b s.cpu.refs

theorem givesControl_refs (refs : List Ref) :
    GivesControl ((s.withCpu { s.cpu with refs := refs }).done 1) s s.cpu.m s.cpu.cbw s.cpu.sbo refs :=
  givesControl_done s s.cpu.m s.cpu.cbw s.cpu.sbo refs

theorem givesControl_pass : GivesControl (s.done 1) s s.cpu.m s.cpu.cbw s.cpu.sbo s.cpu.refs :=
  givesControl_done s s.cpu.m s.cpu.cbw s.cpu.sbo s.cpu.refs

end

/-- Settles O21: six instructions write M, two CBW, two SBO, CMR the record of references, PASS none of them. -/
theorem modeBitInstructions : Obligations.ModeBitInstructions := by
  intro s
  refine ⟨?dbm, ?ebm, ?dcbw, ?ecbw, ?dsbo, ?esbo, ?efi, ?dfi, ?eri, ?dri, ?cmr, ?pass⟩
  case dbm | ebm | efi | dfi | eri | dri => exact givesControl_writeM s _
  case dcbw | ecbw => exact givesControl_cbw s _
  case dsbo | esbo => exact givesControl_sbo s _
  case cmr => exact givesControl_refs s []
  case pass => exact givesControl_pass s

end Sys2Proof.Machine
end

section
/-! Sums, differences and products in A and S registers (43_integer_arithmetic.md R290 to R295). The address units compute
at 32 bits and the register keeps the low AW bits; the scalar add unit computes at 64 bits. -/

namespace Sys2Proof.Machine

open Sys2Proof

/-! ## Differences and products modulo 2^AW (R292, R293) -/

/-- The borrow out of the 32-bit subtraction is beyond the mask: 2^32 is a multiple of 2^AW. -/
theorem amask_sub_toNat (eam : Bool) (x : Addr) {y : Addr} (hy : y.toNat < 2 ^ addrWidth eam) :
    (amask eam (x - y)).toNat = (x.toNat + 2 ^ addrWidth eam - y.toNat) % 2 ^ addrWidth eam := by
  have hAW : addrWidth eam = 24 ∨ addrWidth eam = 32 := by cases eam <;> decide
  rw [amask_toNat, BitVec.toNat_sub]
  rcases hAW with hAW | hAW <;>
  · rw [hAW] at hy ⊢
    omega

theorem amask_mul_toNat (eam : Bool) (x y : Addr) :
    (amask eam (x * y)).toNat = x.toNat * y.toNat % 2 ^ addrWidth eam := by
  rw [amask_toNat, BitVec.toNat_mul, mod_two_pow_mod_addrWidth]

/-! ## The statement -/

/-- Settles O33: each instruction writes one register (`givesA_done`, `givesS_done`) with a 32-bit result cut to AW bits,
or with a 64-bit result. -/
theorem scalarIntegerArithmetic : Obligations.ScalarIntegerArithmetic := by
  intro s i j k n a b v w
  refine ⟨?aAdd, ?aSub, ?aMul, ?sAdd, ?sSub⟩
  case aAdd => exact givesA_done s i _ 1 _ (amask_add_toNat _ _ _)
  case aSub => exact givesA_done s i _ 1 _ (amask_sub_toNat _ _ (akVal_lt s k))
  case aMul => exact givesA_done s i _ 1 _ (amask_mul_toNat _ _ _)
  case sAdd => exact givesS_done s i _ 1 _ (BitVec.toNat_add _ _)
  case sSub => exact givesS_done s i _ 1 _ (word_sub_toNat _ _)

end Sys2Proof.Machine
end

section
/-! The divide sequence (44_floating_point.md R350): what its first three steps leave in S5, for every implementation that
R314, R317 and R318 allow. `divideSequence_near_reciprocal` shows all that O38
(`Obligations.DivideSequenceReachesTheReciprocal`) asks but one conjunct: that S5 is normalized is shown unless the kept
bits of the last product are 2^47, the least normalized coefficient. There R314 (2) allows a product one unit too small, which is not normalized
(`unnormalized_quotient_allowed`), so that O38 depends on the values of `Config.frecip`, `Config.fiter` and
`Config.fmulDelta`, which the model leaves open: it is neither proved nor refuted here. -/

namespace Sys2Proof.Machine

open Sys2Proof

/-! ## Numbers whose product is near 1 -/

/-- The product of two numbers is within `tol` units of 2^-96 of 1; `e` is the sum of the unbiased exponents. -/
def NearOne (a b : Word) (e tol : Nat) : Prop :=
  fpExp a + fpExp b = 0o100000 + e ∧
  2 ^ 96 < fpCoef a * fpCoef b * 2 ^ e + tol ∧ fpCoef a * fpCoef b * 2 ^ e < 2 ^ 96 + tol

/-- Two normalized numbers with a product near 1: their unbiased exponents add up to 2 at most. -/
theorem NearOne.le_two {a b : Word} {e : Nat} (h : NearOne a b e (2 ^ 67)) (ha : 2 ^ 47 ≤ fpCoef a)
    (hb : 2 ^ 47 ≤ fpCoef b) : e ≤ 2 := by
  obtain ⟨-, -, hhi⟩ := h
  by_contra he
  have hpow : 2 ^ 3 ≤ 2 ^ e := Nat.pow_le_pow_right two_pos (by omega)
  have hprod := Nat.mul_le_mul (Nat.mul_le_mul ha hb) hpow
  omega

/-- The approximation of a normalized number whose reciprocal is in range is an operand of R317 and raises nothing. -/
theorem recipWord_of_in_range {a : Word} (hnormal : 2 ^ 47 ≤ fpCoef a) (hlo : 0o20003 ≤ fpExp a)
    (hhi : fpExp a ≤ 0o57777) : (recipWord a).2 = false ∧ fpSign (recipWord a).1 = fpSign a ∧
      (2 ^ 47 ≤ fpCoef (recipWord a).1 ∧ 0o20000 ≤ fpExp (recipWord a).1 ∧ fpExp (recipWord a).1 ≤ 0o57777) ∧
      ∃ e, NearOne (recipWord a).1 a e (2 ^ 67) := by
  have h := recipOk_recipWord a
  rw [RecipOk, if_neg (by omega)] at h
  simp only [if_pos hnormal] at h
  obtain ⟨herr, hsign, hcoef, e, hnear⟩ := h
  have he : e ≤ 2 := NearOne.le_two hnear hcoef hnormal
  have hexp := hnear.1
  exact ⟨herr, hsign, ⟨hcoef, by omega, by omega⟩, e, hnear⟩

/-! ## The arithmetic of one iteration -/

/-- Newton's step: with u within 2^-29 of 1 and v within 2^-47 of 2 - u, the product v * u is within little more than
2^-47 of 1, since (2 - u) * u differs from 1 by the square of the error of u. -/
theorem newton_step {u v : Nat} (hulo : 2 ^ 96 < u + 2 ^ 67) (huhi : u < 2 ^ 96 + 2 ^ 67)
    (hvlo : 2 ^ 97 ≤ v + u + 2 ^ 49) (hvhi : v + u ≤ 2 ^ 97 + 2 ^ 49) :
    2 ^ 192 < v * u + (2 ^ 145 + 2 ^ 135) ∧ v * u < 2 ^ 192 + (2 ^ 145 + 2 ^ 135) := by
  obtain ⟨d, hd⟩ : ∃ d : Int, (u : Int) = 2 ^ 96 + d := ⟨u - 2 ^ 96, by omega⟩
  obtain ⟨ε, hε⟩ : ∃ ε : Int, (v : Int) = 2 ^ 96 - d + ε := ⟨v + d - 2 ^ 96, by omega⟩
  have hdabs : |d| ≤ 2 ^ 67 := abs_le.mpr ⟨by omega, by omega⟩
  have hεabs : |ε| ≤ 2 ^ 49 := abs_le.mpr ⟨by omega, by omega⟩
  have hprod : ((v * u : Nat) : Int) = 2 ^ 192 + 2 ^ 96 * ε - d * d + d * ε := by
    rw [Nat.cast_mul, hd, hε]
    ring
  have hdd := abs_le.mp ((abs_mul d d).trans_le (mul_le_mul hdabs hdabs (abs_nonneg d) (by norm_num)))
  have hdε := abs_le.mp ((abs_mul d ε).trans_le (mul_le_mul hdabs hεabs (abs_nonneg ε) (by norm_num)))
  have hεbounds := abs_le.mp hεabs
  omega

/-- The last multiply: a coefficient `z` within one unit of the kept bits of `p` stands for 1 as closely as `p` does, up
to one unit and the bits dropped. `q` is the factor by which `p` gives the refined product `m`, and `w` that of a unit of
the kept bits. -/
theorem kept_step {p q k z m w : Nat} (hm : p * q = m) (hw : 2 ^ k * q = w)
    (hmlo : 2 ^ 192 < m + (2 ^ 145 + 2 ^ 135)) (hmhi : m < 2 ^ 192 + (2 ^ 145 + 2 ^ 135))
    (hp : 2 ^ k * 2 ^ 47 ≤ p) (hz : WithinOne z (p / 2 ^ k)) :
    2 ^ 192 < z * w + 2 ^ 147 ∧ z * w < 2 ^ 192 + 2 ^ 147 ∧ w < 2 ^ 146 := by
  obtain ⟨hzhi, hzlo⟩ := hz
  have hple : z * 2 ^ k ≤ p + 2 ^ k := by
    have := Nat.mul_le_mul_right (2 ^ k) hzhi
    have := Nat.div_mul_le_self p (2 ^ k)
    rw [Nat.add_mul] at *
    omega
  have hplt : p ≤ z * 2 ^ k + 2 * 2 ^ k := by
    have := Nat.mul_le_mul_right (2 ^ k) hzlo
    have := Nat.lt_div_mul_add (a := p) (Nat.two_pow_pos k)
    rw [Nat.add_mul] at *
    omega
  have hwle : 2 ^ 47 * w ≤ m := by
    calc 2 ^ 47 * w = 2 ^ k * 2 ^ 47 * q := by rw [← hw]; ring
      _ ≤ p * q := Nat.mul_le_mul_right q hp
      _ = m := hm
  have hzw : z * 2 ^ k * q = z * w := by rw [← hw, Nat.mul_assoc]
  have hupper : z * w ≤ m + w := by
    have := Nat.mul_le_mul_right q hple
    rwa [hzw, Nat.add_mul, hm, hw] at this
  have hlower : m ≤ z * w + 2 * w := by
    have := Nat.mul_le_mul_right q hplt
    rwa [Nat.add_mul, hzw, hm, Nat.mul_assoc 2, hw] at this
  omega

theorem mulDropped_add_shift (a b : Word) : mulDropped a b + (if mulShift a b then 1 else 0) = 48 := by
  rw [mulDropped]
  split <;> rfl

/-- The kept bits of a product of normalized coefficients are normalized. -/
theorem keptBits_normal {a b : Word} (ha : 2 ^ 47 ≤ fpCoef a) (hb : 2 ^ 47 ≤ fpCoef b) :
    2 ^ mulDropped a b * 2 ^ 47 ≤ coefProduct a b := by
  have hp := Nat.mul_le_mul ha hb
  rw [mulDropped, mulShift]
  split
  · exact hp
  · rename_i h
    exact Nat.not_lt.mp fun hlt => h (decide_eq_true hlt)

/-- R317 and R314 (2) on a number `a` and its approximation `r`: the iteration `n` times `r` is near 1 / `a`. -/
theorem product_near_one {a r n : Word} {e x z : Nat} (ha : 2 ^ 47 ≤ fpCoef a) (hr : 2 ^ 47 ≤ fpCoef r)
    (hn : 2 ^ 47 ≤ fpCoef n) (hnear : NearOne r a e (2 ^ 67))
    (hlo : 2 ^ 97 ≤ fpCoef n * 2 ^ (48 + x) + coefProduct r a * 2 ^ e + 2 ^ 49)
    (hhi : fpCoef n * 2 ^ (48 + x) + coefProduct r a * 2 ^ e ≤ 2 ^ 97 + 2 ^ 49)
    (hz : WithinOne z (keptBits n r)) :
    ∃ E, e + x = E + (if mulShift n r then 1 else 0) ∧ E ≤ 2 ∧
      2 ^ 96 < z * fpCoef a * 2 ^ E + 2 ^ 51 ∧ z * fpCoef a * 2 ^ E < 2 ^ 96 + 2 ^ 51 := by
  obtain ⟨-, hulo, huhi⟩ := hnear
  obtain ⟨hmlo, hmhi⟩ := newton_step hulo huhi hlo hhi
  have hm : coefProduct n r * (fpCoef a * 2 ^ (e + x + 48)) =
      fpCoef n * 2 ^ (48 + x) * (fpCoef r * fpCoef a * 2 ^ e) := by
    rw [coefProduct]
    ring
  obtain ⟨hzlo, hzhi, hw⟩ := kept_step hm rfl hmlo hmhi (keptBits_normal hn hr) hz
  have hshift : (if mulShift n r then 1 else 0) ≤ e + x := by
    split
    · rename_i hs
      have hp : coefProduct n r < 2 ^ 95 := of_decide_eq_true hs
      by_contra hzero
      obtain ⟨rfl, rfl⟩ : e = 0 ∧ x = 0 := by omega
      have hq : fpCoef a * 2 ^ (0 + 0 + 48) < 2 ^ 96 := by
        have := fpCoef_lt a
        omega
      have := Nat.mul_lt_mul'' hp hq
      omega
    · exact Nat.zero_le _
  obtain ⟨E, hE⟩ := Nat.exists_eq_add_of_le' hshift
  have hsum := mulDropped_add_shift n r
  have hunit : 2 ^ mulDropped n r * (fpCoef a * 2 ^ (e + x + 48)) = fpCoef a * 2 ^ E * 2 ^ 96 := by
    have hexp : mulDropped n r + (e + x + 48) = E + 96 := by omega
    rw [Nat.mul_left_comm, ← pow_add, hexp, pow_add, Nat.mul_assoc]
  have hvalue : z * (fpCoef a * 2 ^ E * 2 ^ 96) = z * fpCoef a * 2 ^ E * 2 ^ 96 := by
    simp only [Nat.mul_assoc]
  rw [hunit] at hw
  rw [hunit, hvalue] at hzlo hzhi
  refine ⟨E, hE, ?_, by omega, by omega⟩
  by_contra hbig
  have hpow : 2 ^ 3 ≤ 2 ^ E := Nat.pow_le_pow_right two_pos (by omega)
  have := Nat.mul_le_mul ha hpow
  omega

/-- The word of the last multiply: the sign, the accuracy and no range error, unless its kept bits are all ones. -/
theorem productWord_near_reciprocal {a r n w : Word} {e x : Nat} {err : Bool}
    (ha : 2 ^ 47 ≤ fpCoef a) (halo : 0o20003 ≤ fpExp a) (hahi : fpExp a ≤ 0o57777)
    (hr : 2 ^ 47 ≤ fpCoef r ∧ 0o20000 ≤ fpExp r ∧ fpExp r ≤ 0o57777) (hnear : NearOne r a e (2 ^ 67))
    (hn : 2 ^ 47 ≤ fpCoef n) (hnsign : fpSign n = false) (hnexp : fpExp n = 0o40000 + x)
    (hlo : 2 ^ 97 ≤ fpCoef n * 2 ^ (48 + x) + coefProduct r a * 2 ^ e + 2 ^ 49)
    (hhi : fpCoef n * 2 ^ (48 + x) + coefProduct r a * 2 ^ e ≤ 2 ^ 97 + 2 ^ 49)
    (hkept : keptBits n r ≠ 2 ^ 48 - 1) (h : ProductWord IntegerProduct ProductOk n r w err) :
    err = false ∧ fpSign w = fpSign r ∧ WithinOne (fpCoef w) (keptBits n r) ∧ NearOne w a
      (fpExp w + fpExp a - 0o100000) (2 ^ 51) := by
  obtain ⟨hrcoef, hrlo, hrhi⟩ := hr
  rw [ProductWord, if_neg (by omega)] at h
  obtain ⟨raw, ⟨⟨hsign, -⟩, hproduct, -⟩, hchecked⟩ := h
  have hnz : fpExp n ≠ 0 := by omega
  have hrz : fpExp r ≠ 0 := by omega
  have hlt := keptBits_lt n r
  obtain ⟨hexp, hcoef⟩ := ((productOf_iff _ _ _ _).mp (hproduct ⟨hnz, hrz, hn, hrcoef⟩)).2 (.inl (by omega))
  obtain ⟨E, hE, hle, hzlo, hzhi⟩ := product_near_one ha hrcoef hn hnear hlo hhi hcoef
  have hrexp := hnear.1
  have hrawexp : raw.exp + fpExp a = 0o100000 + E := by
    rw [ShiftedExp] at hexp
    split at hexp <;> rename_i hs
    · rw [if_pos hs] at hE
      omega
    · rw [if_neg hs] at hE
      omega
  have hnotzero : ¬ (raw = rawZero ∨ raw.exp ≤ 0o17777) := by
    rintro (rfl | hunder)
    · change (0 : Int) + fpExp a = 0o100000 + E at hrawexp
      omega
    · omega
  rw [RangeChecked, if_neg hnotzero, if_neg (by omega)] at hchecked
  obtain ⟨hwsign, hwcoef, hwexp, herr⟩ := hchecked
  have hsum : fpExp w + fpExp a = 0o100000 + E := by omega
  rw [hsum, Nat.add_sub_cancel_left, NearOne, hwcoef]
  refine ⟨herr, ?_, hcoef, hsum, hzlo, hzhi⟩
  rw [hwsign, hsign hnz hrz, hnsign, Bool.false_xor]

/-! ## The case left free -/

/-- The operand 2 - 2^-47, an approximation that R318 allows, an iteration on it that R317 allows, and a product of the
two that R314 allows: its kept bits are 2^47, and its coefficient is one unit less. -/
theorem unnormalized_quotient_allowed :
    let a : Word := 0x4001FFFFFFFFFFFF
    let r : Word := 0x4000800000000001
    let n : Word := 0x4000FFFFFFFFFFFF
    (2 ^ 47 ≤ fpCoef a ∧ 0o20003 ≤ fpExp a ∧ fpExp a ≤ 0o57777) ∧
    recipOk a { sign := fpSign r, exp := fpExp r, coef := BitVec.ofNat 48 (fpCoef r) } = true ∧
    iterOk r a { sign := fpSign n, exp := fpExp n, coef := BitVec.ofNat 48 (fpCoef n) } = true ∧
    keptBits n r = 2 ^ 47 ∧ ProductOk n r { sign := false, exp := 0o40000, coef := BitVec.ofNat 48 (2 ^ 47 - 1) } := by
  intro a r n
  have hnormal : BothNormal n r := ⟨by decide, by decide, by decide, by decide⟩
  have hshifted : ShiftedExp n r false { sign := false, exp := 0o40000, coef := BitVec.ofNat 48 (2 ^ 47 - 1) } := by
    rw [ShiftedExp]
    decide
  have hshift : mulShift n r = false := by decide
  have hkept : keptBits n r = 2 ^ 47 := by decide
  have hdropped : droppedBits n r ≠ 0 := by decide
  refine ⟨by decide, by decide, by decide, hkept, productAny_of_normal hnormal (by decide), fun _ => ?_,
    shiftedOnce_of_normal hnormal _, false, hshifted⟩
  rw [productOf_iff, hshift, hkept, ofNat48_toNat (by norm_num)]
  exact ⟨fun hz => absurd hz hdropped, fun _ => ⟨hshifted, by norm_num, by norm_num⟩⟩

/-! ## The three steps -/

/-- Without a range error M and F stay as they are. -/
theorem ReportsRange.of_not {s t : State} {err : Prop} (h : ReportsRange s t err) (herr : ¬ err) :
    t.cpu.m = s.cpu.m ∧ t.cpu.f = s.cpu.f := by
  obtain ⟨hm, hf, hfps, hfpe⟩ := h
  have hmsame : t.cpu.m.fps = s.cpu.m.fps := Bool.eq_iff_iff.mpr (hfps.trans (or_iff_left herr))
  have hfsame : t.cpu.f.fpe = s.cpu.f.fpe := Bool.eq_iff_iff.mpr (hfpe.trans (or_iff_left fun h => herr h.1))
  rw [hmsame] at hm
  rw [hfsame] at hf
  exact ⟨hm, hf⟩

theorem Moved.trans {s t u : State} {m n : Nat} (h : Moved s t m) (h' : Moved t u n) : Moved s u (m + n) := by
  rw [Moved] at h h' ⊢
  omega

theorem keptBits_eq (a b : Word) : keptBits a b =
    if fpCoef a * fpCoef b < 2 ^ 95 then fpCoef a * fpCoef b / 2 ^ 47 else fpCoef a * fpCoef b / 2 ^ 48 := by
  rw [keptBits, mulDropped, mulShift, coefProduct]
  by_cases h : fpCoef a * fpCoef b < 2 ^ 95
  · rw [if_pos h, decide_eq_true h, if_pos rfl]
  · rw [if_neg h, decide_eq_false h, if_neg Bool.false_ne_true]

/-- R350 for every implementation: the conclusion of O38, in which S5 is normalized unless the kept bits are 2^47. -/
theorem divideSequence_near_reciprocal (s : State) :
    let a := regGet s.cpu.s 2
    2 ^ 47 ≤ fpCoef a → 0o20003 ≤ fpExp a → fpExp a ≤ 0o57777 →
    ∃ s3 s4 s5 : State, exec (.sFrecip 3 2) s = .next s3 ∧ exec (.sFiter 4 3 2) s3 = .next s4 ∧
      exec (.sFmul 5 4 3) s4 = .next s5 ∧ Moved s s5 3 ∧
      let kept := keptBits (regGet s4.cpu.s 4) (regGet s4.cpu.s 3)
      let z := regGet s5.cpu.s 5
      kept = 2 ^ 48 - 1 ∨
        (s5.cpu.m = s.cpu.m ∧ s5.cpu.f = s.cpu.f ∧ fpSign z = fpSign a ∧ (kept ≠ 2 ^ 47 → 2 ^ 47 ≤ fpCoef z) ∧
          NearOne z a (fpExp z + fpExp a - 0o100000) (2 ^ 51)) := by
  intro a ha halo hahi
  obtain ⟨hrerr, hrsign, hrange, e, hnear⟩ := recipWord_of_in_range ha halo hahi
  obtain ⟨s3, err3, h3, ⟨hs3, rfl⟩, hreports3, hmoved3, hkeep3, -, -⟩ :=
    givesSFp_scalarFp s 3 (recipWord a) (q := fun w err => w = (recipWord a).1 ∧ err = (recipWord a).2) ⟨rfl, rfl⟩
  obtain ⟨s4, err4, h4, hiter, hreports4, hmoved4, hkeep4, -, -⟩ :=
    givesSFp_scalarFp s3 4 _ (iterOk_iterWord (regGet s3.cpu.s 3) (regGet s3.cpu.s 2))
  obtain ⟨s5, err5, h5, hproduct, hreports5, hmoved5, -, -, -⟩ := givesSFp_sFmul s4 5 4 3
  have hs2 : regGet s3.cpu.s 2 = a := hkeep3 2 (by decide)
  have hr : regGet s4.cpu.s 3 = (recipWord a).1 := (hkeep4 3 (by decide)).trans hs3
  rw [hs3, hs2] at hiter
  obtain ⟨rfl, hnsign, hn, e', x, he', -, hnexp, hlo, hhi⟩ := hiter hrange ⟨ha, by omega, hahi⟩ (.inl rfl)
  obtain rfl : e' = e := by
    have hexp := hnear.1
    omega
  refine ⟨s3, s4, s5, h3, h4, h5, (hmoved3.trans hmoved4).trans hmoved5, ?_⟩
  intro kept z
  rw [s4.sjVal_of_ne (by decide), s4.skVal_of_ne (by decide)] at hproduct
  by_cases hones : kept = 2 ^ 48 - 1
  · exact .inl hones
  have hnormal := keptBits_normal hn (hr.symm ▸ hrange.1)
  rw [← hr] at hrange hnear hlo hhi hrsign
  obtain ⟨rfl, hzsign, hzcoef, hznear⟩ :=
    productWord_near_reciprocal ha halo hahi hrange hnear hn hnsign hnexp hlo hhi hones hproduct
  obtain ⟨hm3, hf3⟩ := hreports3.of_not (by rw [hrerr]; decide)
  obtain ⟨hm4, hf4⟩ := hreports4.of_not (by decide)
  obtain ⟨hm5, hf5⟩ := hreports5.of_not (by decide)
  refine .inr ⟨hm5.trans (hm4.trans hm3), hf5.trans (hf4.trans hf3), hzsign.trans hrsign, fun hleast => ?_, hznear⟩
  have hkept : 2 ^ 47 ≤ kept := (Nat.le_div_iff_mul_le (Nat.two_pow_pos _)).mpr (by rwa [Nat.mul_comm])
  obtain ⟨-, hzlo⟩ : WithinOne (fpCoef z) kept := hzcoef
  omega

end Sys2Proof.Machine
end

section
/-! Logical instructions of S registers (45_logical.md R360 to R370) and single shifts (46_shift.md R400 to R404). -/

namespace Sys2Proof.Machine

open Sys2Proof

/-! ## Complemented bits (R362, R366, R368) -/

theorem getLsbD_andNot (x y : Word) {b : Nat} (hb : b < 64) :
    (x &&& ~~~y).getLsbD b = (x.getLsbD b && !y.getLsbD b) := by
  rw [BitVec.getLsbD_and, BitVec.getLsbD_not, decide_eq_true hb, Bool.true_and]

theorem getLsbD_xnor (x y : Word) {b : Nat} (hb : b < 64) :
    (~~~(x ^^^ y)).getLsbD b = (x.getLsbD b == y.getLsbD b) := by
  rw [BitVec.getLsbD_not, BitVec.getLsbD_xor, decide_eq_true hb, Bool.true_and]
  exact Bool.not_not _

theorem getLsbD_merge (mask x y : Word) {b : Nat} (hb : b < 64) :
    (merge mask x y).getLsbD b = if mask.getLsbD b then x.getLsbD b else y.getLsbD b := by
  rw [merge, BitVec.getLsbD_or, BitVec.getLsbD_and, getLsbD_andNot y mask hb]
  cases mask.getLsbD b <;> simp

/-! ## The statement -/

/-- Settles O40: each instruction writes one register (`givesS_done`) with a word known bit by bit, or by its value
where the word is a shifted one (`shl64_toNat`, `shr64_toNat`). -/
theorem scalarLogicAndShifts : Obligations.ScalarLogicAndShifts := by
  intro s i j k jk x y v is
  refine ⟨?sAnd, ?sAndn, ?sXor, ?sXnor, ?sOr, ?sMerge, ?s0Shl, ?s0Shr, ?sShl, ?sShr⟩
  case sAnd => exact givesS_done s i _ 1 _ fun _ _ => BitVec.getLsbD_and
  case sAndn => exact givesS_done s i _ 1 _ fun _ => getLsbD_andNot x y
  case sXor => exact givesS_done s i _ 1 _ fun _ _ => BitVec.getLsbD_xor
  case sXnor => exact givesS_done s i _ 1 _ fun _ => getLsbD_xnor x y
  case sOr => exact givesS_done s i _ 1 _ fun _ _ => BitVec.getLsbD_or
  case sMerge => exact givesS_done s i _ 1 _ fun _ => getLsbD_merge y x (s.readS i)
  case s0Shl => exact givesS_done s 0 _ 1 _ (shl64_toNat _ _)
  case s0Shr => exact givesS_done s 0 _ 1 _ (shr64_toNat _ _)
  case sShl => exact givesS_done s i _ 1 _ (shl64_toNat _ _)
  case sShr => exact givesS_done s i _ 1 _ (shr64_toNat _ _)

end Sys2Proof.Machine
end

section
/-! Branches, jumps and the exits (48_branch.md R440 to R454, 60_exceptions.md R521, R522, R531). -/

namespace Sys2Proof.Machine

open Sys2Proof

/-! ## What a branch does -/

section
variable (s : State) (target : PAddr)

theorem jumpsTo_jump : JumpsTo (.next (s.jump target)) s target := ⟨_, rfl, rfl, rfl, fun _ => rfl⟩

theorem passes_done (n : Nat) : Passes (s.done n) s n := ⟨_, rfl, moved_advance _ _ _ rfl, rfl, fun _ => rfl⟩

variable {s target} in
/-- A conditional branch whose test decides `c` goes to its target exactly when `c` holds. -/
theorem branchIf_goes {taken : Bool} {c : Prop} (h : taken = true ↔ c) :
    (c → JumpsTo (s.branchIf taken target) s target) ∧ (¬ c → Passes (s.branchIf taken target) s 2) := by
  constructor
  · intro hc
    rw [State.branchIf, if_pos (h.mpr hc)]
    exact jumpsTo_jump s target
  · intro hc
    rw [State.branchIf, if_neg (mt h.mp hc)]
    exact passes_done s 2

end

/-! ## The tests of A0 and S0 (R443 to R450) -/

section
variable (s : State)

theorem readA_eq_zero_iff (i : BitVec 3) :
    (s.readA i == 0) = true ↔ (regGet s.cpu.a i).toNat % 2 ^ addrWidth s.cpu.m.eam = 0 := by
  rw [← s.readA_toNat, beq_iff_eq, ← BitVec.toNat_inj]
  rfl

theorem readA_ne_zero_iff (i : BitVec 3) :
    (s.readA i != 0) = true ↔ (regGet s.cpu.a i).toNat % 2 ^ addrWidth s.cpu.m.eam ≠ 0 := by
  rw [ne_eq, ← readA_eq_zero_iff, bne, Bool.not_eq_true', Bool.not_eq_true]

/-- Bit AW - 1 of a number of AW bits is set in the upper half of their range (R445, R446). -/
theorem asign_readA_iff (i : BitVec 3) : asign s.cpu.m.eam (s.readA i) = true ↔
    2 ^ addrWidth s.cpu.m.eam ≤ 2 * ((regGet s.cpu.a i).toNat % 2 ^ addrWidth s.cpu.m.eam) := by
  have hlt : (s.readA i).toNat < 2 ^ addrWidth s.cpu.m.eam := amask_lt _ _
  rw [asign_eq_neg hlt, decide_eq_true_eq, addrInt, ← s.readA_toNat]
  split <;> omega

theorem not_asign_readA_iff (i : BitVec 3) : (!asign s.cpu.m.eam (s.readA i)) = true ↔
    2 * ((regGet s.cpu.a i).toNat % 2 ^ addrWidth s.cpu.m.eam) < 2 ^ addrWidth s.cpu.m.eam := by
  rw [← Nat.not_le, ← asign_readA_iff, Bool.not_eq_true', Bool.not_eq_true]

end

theorem TestsSign.iff {test : Word → Bool} {p : Int → Bool} (h : TestsSign test p) (x : Word) :
    test x = true ↔ p x.toInt = true := by rw [h x]

/-- Settles O45: each branch is `branchIf_goes` with what its test decides; S0 is tested as an element of a vector is by
the mask instructions. -/
theorem branches : Obligations.Branches := by
  intro s exp a v goes
  exact ⟨jumpsTo_jump s exp, branchIf_goes (readA_eq_zero_iff s 0), branchIf_goes (readA_ne_zero_iff s 0),
    branchIf_goes ((testsSign_zero.iff _).trans beq_iff_eq), branchIf_goes ((testsSign_nonzero.iff _).trans bne_iff_ne),
    branchIf_goes ((testsSign_plus.iff _).trans decide_eq_true_iff),
    branchIf_goes ((testsSign_minus.iff _).trans decide_eq_true_iff)⟩

/-! ## The jump through a B register and the return jump (R441, R452) -/

theorem State.readB_toNat (s : State) (jk : BitVec 6) :
    (s.readB jk).toNat = (regGet s.cpu.b jk).toNat % 2 ^ addrWidth s.cpu.m.eam := amask_toNat _ _

theorem exec_jB (jk : BitVec 6) (s : State) : exec (.jB jk) s = execJB jk s := rfl

/-- Settles O46: the tests of the sign of A0, the bound on the B register, and what the return jump writes. -/
theorem branchesOnSignAndThroughB : Obligations.BranchesOnSignAndThroughB := by
  intro s exp jk n a b goes
  have hb : (s.readB jk).toNat = b := s.readB_toNat jk
  refine ⟨branchIf_goes (not_asign_readA_iff s 0), branchIf_goes (asign_readA_iff s 0), fun hlt => ?through,
    fun hle => ?tooWide, _, rfl, rfl, ?link, fun r hr => regGet_regPut_ne _ _ _ _ hr, rfl, fun _ => rfl⟩
  case through =>
    rw [exec_jB, execJB, hb, if_neg (Nat.not_le.mpr hlt), ← hb, BitVec.ofNat_toNat]
    exact jumpsTo_jump s _
  case tooWide => rw [exec_jB, execJB, hb, if_pos hle]
  case link =>
    have hwidth : 24 ≤ addrWidth s.cpu.m.eam := by cases s.cpu.m.eam <;> decide
    rw [State.jump_cpu, State.writeB_cpu, regGet_regPut_same, amask_setWidth_toNat _ hwidth, BitVec.toNat_add]
    rfl

/-! ## The exits (R453, R454) -/

/-- The state in which an exit begins its exchange: P past the instruction, F as the exit leaves it. -/
def State.exiting (s : State) (f : Flags) : State := (s.advance 1).withCpu { (s.advance 1).cpu with f := f }

theorem exec_ex (s : State) : exec .ex s =
    (s.exiting { s.cpu.f with nex := s.cpu.f.nex || userGate s.cpu.m }).exchangeSequence := rfl

theorem exec_err (s : State) : exec .err s =
    (s.exiting { s.cpu.f with eex := s.cpu.f.eex || immGate s.cpu.m }).exchangeSequence := rfl

/-- The incoming package depends on memory, XA, and what accompanies the reads alone. -/
theorem package_congr {s t : State} (hmem : t.mem = s.mem) (hbase : t.cpu.packageBase = s.cpu.packageBase)
    (hreads : t.readErrors = s.readErrors) (hdraws : t.draws = s.draws) : t.package = s.package := by
  simp only [State.package, deliveredImage_eq_wordsImage, State.errorsAt, State.drawAt, hmem, hbase, hreads, hdraws]

section
variable {s : State}

theorem package_exiting (f : Flags) : (s.exiting f).package = s.package := package_congr rfl rfl rfl rfl

/-- An exit exchanges to where the exchange in its own state would go. -/
theorem exchange_exiting (h : CanExchange s) (f : Flags) :
    (s.exiting f).exchangeSequence = .next ((s.exiting f).swapped s.package) := by
  obtain ⟨hmem, hbusy, hvl, hcln⟩ := h
  have hpackage := package_exiting (s := s) f
  refine exchange_next.mpr ⟨hmem, (packageBusy_congr rfl rfl).trans hbusy, ?_, ?_, ?_⟩ <;> rw [hpackage]
  · exact hvl
  · exact hcln

/-- P and F after an exchange; errors of its reads can set F.ME (log 25). -/
theorem swapped_p_and_flags (s : State) (img : PackageImage) :
    (s.swapped img).cpu.p = (readField s.params.xp img .p).setWidth 24 ∧
    (s.swapped img).cpu.f = { readFieldFlags s.params.xp img with me := (s.swapped img).cpu.f.me } ∧
    (s.packageErrors 16 = [] → (s.swapped img).cpu.f.me = (readFieldFlags s.params.xp img).me) := by
  obtain ⟨now, hcpu⟩ := swapped_cpu s img
  obtain ⟨cme, ume, me, err, hfields⟩ :=
    noteErrors_fields (s.cpu.load s.params.xp s.params.blGrain now img) (s.packageErrors 16)
  refine ⟨by rw [hcpu, hfields]; rfl, by rw [hcpu, hfields]; rfl, fun hnone => ?_⟩
  rw [hcpu, hnone, noteErrors_nil]
  rfl

/-- What an exit with the flags `g` does, where `g` is F with the flag `f` set besides if `set`. -/
theorem exiting_exchanges (h : CanExchange s) (hwf : s.params.wf = true) (hd : s.cpu.deadstart = false)
    {f : FlagName} {set : Bool} {g : Flags} (hg : ∀ n, g.get n = (s.cpu.f.get n || (decide (n = f) && set))) :
    ∃ t, (s.exiting g).exchangeSequence = .next t ∧
      let img := Memory.readImage t.mem s.cpu.packageBase 16
      Holds s img .p (BitVec.ofNat 64 ((s.cpu.p.toNat + 1) % 2 ^ 24)) ∧
      (∀ n : FlagName, Holds s img (.flag n)
        ((BitVec.ofBool (s.cpu.f.get n || (decide (n = f) && set))).setWidth 64)) ∧
      t.cpu.p = (readField s.params.xp s.package .p).setWidth 24 ∧
      t.cpu.f = { readFieldFlags s.params.xp s.package with me := t.cpu.f.me } ∧
      (s.packageErrors 16 = [] → t.cpu.f.me = (readFieldFlags s.params.xp s.package).me) := by
  have himg := readImage_swapped (s.exiting g) s.package
  have hnext : (s.cpu.p + 1).setWidth 64 = BitVec.ofNat 64 ((s.cpu.p.toNat + 1) % 2 ^ 24) := by
    rw [← BitVec.ofNat_toNat, BitVec.toNat_add]
    rfl
  obtain ⟨hp, hf, hme⟩ := swapped_p_and_flags (s.exiting g) s.package
  refine ⟨_, exchange_exiting h g, ?_, fun n => ?_, hp, hf, fun hnone => hme ((packageErrors_congr rfl 16).trans hnone)⟩
  · rw [← hnext]
    exact himg ▸ holds_outgoing (s := s.exiting g) hwf hd rfl
  · rw [← hg n]
    exact himg ▸ holds_outgoing (s := s.exiting g) hwf hd rfl

end

/-! ## The flag of an exit (R521, R522) -/

theorem Flags.get_or_nex (f : Flags) (b : Bool) (n : FlagName) :
    ({ f with nex := f.nex || b } : Flags).get n = (f.get n || (decide (n = .nex) && b)) := by
  cases n <;> simp [Flags.get]

theorem Flags.get_or_eex (f : Flags) (b : Bool) (n : FlagName) :
    ({ f with eex := f.eex || b } : Flags).get n = (f.get n || (decide (n = .eex) && b)) := by
  cases n <;> simp [Flags.get]

/-- Settles O47: both exits are an exchange from the state they leave (`exiting_exchanges`), with the gate of their
flag: NEX in user mode, EEX under IMM too. -/
theorem exitsExchange : Obligations.ExitsExchange := by
  intro s h hwf hd leaves
  exact ⟨exiting_exchanges h hwf hd (s.cpu.f.get_or_nex (userGate s.cpu.m)),
    exiting_exchanges h hwf hd (s.cpu.f.get_or_eex (immGate s.cpu.m))⟩

end Sys2Proof.Machine
end

section
/-! What a boundary finds (60_exceptions.md R511 to R514, R523): which flags it can set, of the CPU that moves and of
the others, and the exchange that a set flag starts (R530, R533). -/

namespace Sys2Proof.Machine

open Sys2Proof

/-! ## The flags a boundary sets -/

/-- Routing a channel interrupt sets F.IOI alone, whichever CPU gets it (R520). -/
theorem routeIo_frame (s : State) :
    List.Forall₂ (fun c d => d = { c with f := { c.f with ioi := d.f.ioi } }) s.cpus s.routeIo.cpus := by
  rcases routeIo_cases s with ⟨-, h⟩ | ⟨p, -, n, h⟩
  · rw [h]
    exact List.forall₂_same.mpr fun _ _ => rfl
  · rw [h]
    change List.Forall₂ _ s.cpus (s.updateCpu p Cpu.raiseIoi).cpus
    rw [cpus_updateCpu, List.forall₂_map_right_iff]
    refine List.forall₂_same.mpr fun c _ => ?_
    split <;> rfl

/-- Looking for a deadlock sets F.DL alone (R513). -/
theorem checkDeadlock_frame (s : State) :
    List.Forall₂ (fun c d => d = { c with f := { c.f with dl := d.f.dl } }) s.cpus s.checkDeadlock.cpus := by
  by_cases h : s.deadlocked = true
  · rw [checkDeadlock_of_deadlocked h]
    change List.Forall₂ _ s.cpus (s.cpus.map (Cpu.seeDeadlock s.cpu.cln))
    exact List.forall₂_map_right_iff.mpr (List.forall₂_same.mpr fun c _ => Cpu.seeDeadlock_frame _ c)
  · rw [checkDeadlock_of_not h]
    exact List.forall₂_same.mpr fun _ _ => rfl

/-- The CPU that moves: its requests set ICP and PCI, and besides those only IOI and DL can become set. -/
theorem atBoundary_cpu_eq (s : State) : ∃ ioi dl, s.atBoundary.cpu =
    { s.cpu.seeRequests with f := { s.cpu.seeRequests.f with ioi := ioi, dl := dl } } := by
  obtain ⟨hroute, -⟩ := List.forall₂_cons.mp (routeIo_frame (s.withCpu s.cpu.seeRequests))
  obtain ⟨hdead, -⟩ := List.forall₂_cons.mp (checkDeadlock_frame (s.withCpu s.cpu.seeRequests).routeIo)
  exact ⟨_, _, hdead.trans (by rw [hroute]; rfl)⟩

/-- Settles O51: of the four flags a boundary can set, ICP and PCI come from the CPU's requests, under the user gate. -/
theorem requestsSetFlags : Obligations.RequestsSetFlags := by
  intro s
  obtain ⟨ioi, dl, h⟩ := atBoundary_cpu_eq s
  simp [h, Cpu.seeRequests, userGate, and_assoc]

/-! ## The exchange at a boundary -/

/-- Settles O7: a running CPU is at its boundary, which exchanges before it issues. -/
theorem flagExchangesBeforeIssue : Obligations.FlagExchangesBeforeIssue := by
  intro s u hd hrun hflag
  obtain ⟨hstarted, hdead⟩ : u.cpu.started = true ∧ u.cpu.deadstart = false := by simpa [Cpu.running] using hrun
  have hstep : step s = u.act := by
    show orStop s.deliver State.act = u.act
    rw [hd]
    rfl
  have hact : u.act = u.boundary := by rw [State.act, hstarted, hdead]; rfl
  rw [hstep, hact]
  exact if_pos hflag

end Sys2Proof.Machine
end

section
/-! Monitor mode (49_monitor_mode.md): the privileged instructions in user mode (R470), channel control (R473 to R477),
XA, the clocks, the interprocessor requests and the cluster number (R478 to R487), and the channel reads (R495 to
R497). -/

namespace Sys2Proof.Machine

open Sys2Proof

/-! ## Privilege (R470) -/

/-- The instructions that R470 lists. -/
def privileged (i : Instr) : Bool :=
  match i with
  | .chCa .. | .chCl .. | .chCi .. | .chMc .. | .xaFromA .. | .rtcLoad .. | .sipi .. | .cipi | .clnLoad .. | .pciLoad ..
  | .cci | .eci | .dci => true
  | _ => false

section
variable {s : State}

theorem monitorOnly_of_monitor (h : s.cpu.m.mm = true) (o : Out) : s.monitorOnly o = o := if_pos h

theorem monitorOnly_of_user (h : s.cpu.m.mm = false) (o : Out) : s.monitorOnly o = s.done 1 :=
  if_neg (by rw [h]; exact Bool.false_ne_true)

/-- Each privileged instruction is under the guard of R470. -/
theorem exec_of_privileged {i : Instr} (hi : privileged i = true) : ∃ o, exec i s = s.monitorOnly o := by
  cases i with
  | chCa | chCl | chCi | chMc | xaFromA | rtcLoad | sipi | cipi | clnLoad | pciLoad | cci | eci | dci =>
    exact ⟨_, rfl⟩
  | _ => cases hi

end

/-- Settles O56: all of them are privileged, and a privileged instruction passes in user mode. -/
theorem privilegedInUserModePasses : Obligations.PrivilegedInUserModePasses := by
  intro s j k x hm hx
  have hpriv : privileged x = true := by
    revert x
    simp [privileged]
  obtain ⟨o, ho⟩ := exec_of_privileged (s := s) hpriv
  rw [ho, monitorOnly_of_user hm]
  exact passes_done s 1

/-! ## Channel control (R473 to R477) -/

section
variable {s : State} {n : Addr} {k : Channel → Out}

theorem withChannel_of_some {c : Channel} (h : s.channel n = some c) : s.withChannel n k = k c := by
  rw [State.withChannel, h]

theorem withChannel_of_none (h : s.channel n = none) : s.withChannel n k = .refused .channelNumber := by
  rw [State.withChannel, h]

end

/-- What O57 says of an outcome: the channel with number `n` is changed by `f`; nothing else differs but P, one parcel
on. -/
def ChangesChannel (o : Out) (s : State) (n : Addr) (f : Channel → Channel) : Prop :=
  ∃ t, o = .next t ∧ Moved s t 1 ∧ SameBytes s t ∧
    t.channels = s.channels.map (fun c => if c.num = n then f c else c) ∧
    t = { s with cpu := { s.cpu with p := t.cpu.p }, channels := t.channels }

theorem changesChannel_done (s : State) (n : Addr) (f : Channel → Channel) :
    ChangesChannel ((s.setChannel n f).done 1) s n f :=
  ⟨_, rfl, moved_advance _ _ _ rfl, fun _ => rfl, rfl, rfl⟩

/-- R476, by the direction of the channel. -/
theorem clearInterrupt_eq : Channel.clearInterrupt = fun c => { c with
    intFlag := false, errFlag := false, masterClear := c.masterClear && decide (c.dir = .input) } := by
  funext c
  unfold Channel.clearInterrupt
  cases c.dir <;> simp

/-- R477, by the direction of the channel. -/
theorem clearMaster_eq : Channel.clearMaster = fun c => { c with
    intFlag := false, errFlag := false, masterClear := c.masterClear || decide (c.dir = .output)
    readyHeld := c.readyHeld && decide (c.dir = .output) } := by
  funext c
  unfold Channel.clearMaster
  cases c.dir <;> simp

section
variable {s : State} (hm : s.cpu.m.mm = true) (j k : BitVec 3)
include hm

theorem exec_chCa_of_monitor : exec (.chCa j k) s = s.withChannel (s.ajVal j) fun c =>
    if c.active then .refused .channelActive
    else (s.setChannel (s.ajVal j) fun c => { c with ca := s.akVal k, active := true }).done 1 :=
  monitorOnly_of_monitor hm _

theorem exec_chCl_of_monitor : exec (.chCl j k) s = s.withChannel (s.ajVal j) fun c =>
    if c.active then .refused .channelActive
    else (s.setChannel (s.ajVal j) fun c => { c with cl := s.akVal k }).done 1 :=
  monitorOnly_of_monitor hm _

theorem exec_chCi_of_monitor : exec (.chCi j) s = s.withChannel (s.ajVal j) fun _ =>
    (s.setChannel (s.ajVal j) Channel.clearInterrupt).done 1 :=
  monitorOnly_of_monitor hm _

theorem exec_chMc_of_monitor : exec (.chMc j) s = s.withChannel (s.ajVal j) fun _ =>
    (s.setChannel (s.ajVal j) Channel.clearMaster).done 1 :=
  monitorOnly_of_monitor hm _

end

/-- Settles O57: a channel that the configuration has is changed, unless it is active and CA or CL is to be written. -/
theorem channelControl : Obligations.ChannelControl := by
  intro s j k hm n gives
  simp only [exec_chCa_of_monitor hm, exec_chCl_of_monitor hm, exec_chCi_of_monitor hm, exec_chMc_of_monitor hm,
    List.forall_mem_cons]
  refine ⟨fun c (hc : s.channel (s.ajVal j) = some c) => ?known, fun hnone => ?unknown⟩
  case known =>
    simp only [withChannel_of_some hc]
    refine ⟨fun hidle => ?idle, fun hactive => ⟨if_pos hactive, if_pos hactive⟩, ?clearInterrupt, ?clearMaster⟩
    case idle =>
      rw [if_neg (by rw [hidle]; exact Bool.false_ne_true), if_neg (by rw [hidle]; exact Bool.false_ne_true)]
      exact ⟨changesChannel_done s n _, changesChannel_done s n _⟩
    case clearInterrupt => exact clearInterrupt_eq ▸ changesChannel_done s n _
    case clearMaster => exact clearMaster_eq ▸ changesChannel_done s n _
  case unknown =>
    exact ⟨withChannel_of_none hnone, withChannel_of_none hnone, withChannel_of_none hnone, withChannel_of_none hnone,
      nofun⟩

/-! ## Control registers (R478 to R487) -/

/-- What O58 says of an outcome: a next state that satisfies `q`, whose CPU is `d` of it; nothing else differs but the
real-time clock, and P is one parcel on. -/
def WritesControl (o : Out) (s : State) (q : State → Prop) (d : State → Cpu) : Prop :=
  ∃ t, o = .next t ∧ Moved s t 1 ∧ SameBytes s t ∧ q t ∧ t = { s with cpu := d t, rtc := t.rtc }

theorem writesControl_done {s t : State} {q : State → Prop} {d : State → Cpu} (hp : t.cpu.p = s.cpu.p)
    (hmem : t.mem = s.mem) (hq : q (t.advance 1))
    (ht : t.advance 1 = { s with cpu := d (t.advance 1), rtc := (t.advance 1).rtc }) :
    WritesControl (t.done 1) s q d :=
  ⟨_, rfl, moved_advance _ _ _ hp, fun x => congrArg (Memory.readByte · x) hmem, hq, ht⟩

/-- R478: the operand is beyond the field for both choices from 2^12 on, for `low8` from 2^8 on. -/
theorem tooBig_iff (sel : XASel) (v : Addr) :
    XASel.tooBig sel v = true ↔ 2 ^ 12 ≤ v.toNat ∨ (2 ^ 8 ≤ v.toNat ∧ sel = .low8) := by
  cases sel with
  | low8 =>
    simp only [XASel.tooBig, decide_eq_true_eq, and_true]
    omega
  | addr => simp [XASel.tooBig]

theorem pick_addr_toNat {v : Addr} (h : v.toNat < 2 ^ 12) : (XASel.pick .addr v).toNat = v.toNat / 16 := by
  rw [XASel.pick, BitVec.extractLsb'_toNat, Nat.shiftRight_eq_div_pow]
  omega

theorem pick_low8_toNat {v : Addr} (h : v.toNat < 2 ^ 8) : (XASel.pick .low8 v).toNat = v.toNat := by
  rw [XASel.pick, BitVec.toNat_setWidth]
  exact Nat.mod_eq_of_lt h

/-- The operand of 0014j1 and 0014j3 as a number. -/
theorem selectVal_toNat (s : State) (j : BitVec 3) :
    (s.selectVal j).toNat = if s.cpu.m.eam then (s.ajVal j).toNat else j.toNat := by
  unfold State.selectVal
  split
  · rfl
  · exact BitVec.toNat_setWidth_of_le (by decide)

/-- A processor number names a CPU as an operand does (R484). -/
theorem pn_eq_iff (pn : BitVec 3) (v : Addr) : pn.setWidth 32 = v ↔ pn.toNat = v.toNat := by
  rw [← BitVec.toNat_inj, BitVec.toNat_setWidth_of_le (by decide)]

section
variable {s : State} (hm : s.cpu.m.mm = true) (j : BitVec 3)
include hm

theorem exec_xaFromA_of_monitor : exec (.xaFromA j) s =
    if XASel.tooBig s.params.xaSel (s.ajVal j) then .refused .xaOperand
    else (s.withCpu { s.cpu with xa := XASel.pick s.params.xaSel (s.ajVal j) }).done 1 :=
  monitorOnly_of_monitor hm _

theorem exec_xaFromA_of_fits (h : ¬ XASel.tooBig s.params.xaSel (s.ajVal j) = true) : exec (.xaFromA j) s =
    (s.withCpu { s.cpu with xa := XASel.pick s.params.xaSel (s.ajVal j) }).done 1 := by
  rw [exec_xaFromA_of_monitor hm, if_neg h]

theorem exec_rtcLoad_of_monitor : exec (.rtcLoad j) s = ({ s with rtc := s.sjVal j } : State).done 1 :=
  monitorOnly_of_monitor hm _

theorem exec_pciLoad_of_monitor : exec (.pciLoad j) s =
    if 2 ^ 32 ≤ (s.sjVal j).toNat then .refused .clockOperand
    else (s.withCpu { s.cpu with ii := (s.sjVal j).setWidth 32, pc := (s.sjVal j).setWidth 32 }).done 1 :=
  monitorOnly_of_monitor hm _

theorem exec_cci_of_monitor : exec .cci s = (s.withCpu { s.cpu with pciRequest := false }).done 1 :=
  monitorOnly_of_monitor hm _

theorem exec_eci_of_monitor : exec .eci s = (s.withCpu { s.cpu with pciEnabled := true }).done 1 :=
  monitorOnly_of_monitor hm _

theorem exec_dci_of_monitor : exec .dci s = (s.withCpu { s.cpu with pciEnabled := false }).done 1 :=
  monitorOnly_of_monitor hm _

theorem exec_cipi_of_monitor : exec .cipi s = (s.withCpu { s.cpu with ipiRequest := false }).done 1 :=
  monitorOnly_of_monitor hm _

theorem exec_sipi_of_monitor : exec (.sipi j) s =
    if s.params.ncpu ≤ (s.selectVal j).toNat then .refused .sipiTarget
    else if s.selectVal j = s.cpu.pn.setWidth 32 then .refused .sipiSelf
    else (s.requestIpi (s.selectVal j)).done 1 :=
  monitorOnly_of_monitor hm _

theorem exec_clnLoad_of_monitor : exec (.clnLoad j) s =
    if s.params.ncluster < (s.selectVal j).toNat then .refused .clusterNumber
    else (s.withCpu { s.cpu with cln := (s.selectVal j).setWidth 4 }).done 1 :=
  monitorOnly_of_monitor hm _

end

/-- Settles O58: each instruction writes its registers where its operand is in range (`writesControl_done`), and the
bound on the operand decides where it stops. -/
theorem monitorControl : Obligations.MonitorControl := by
  intro s j hm c a v x gives
  have hx : (s.selectVal j).toNat = x := selectVal_toNat s j
  have hself : s.selectVal j = s.cpu.pn.setWidth 32 ↔ x = s.cpu.pn.toNat := by
    rw [eq_comm, pn_eq_iff, hx, eq_comm]
  refine ⟨fun ha hsel => ?xaAddr, fun ha hsel => ?xaLow8, fun ha => ?xaBeyond, ?rtc, fun hv => ?clock,
    fun hv => ?clockBeyond, ?cci, ?eci, ?dci, ?cipi, fun hlt hne => ?sipi, fun hle => ?sipiBeyond,
    fun hlt he => ?sipiSelf, fun hle hn => ?cln, fun hlt => ?clnBeyond⟩
  case xaAddr =>
    rw [exec_xaFromA_of_fits hm j (by rw [tooBig_iff, hsel]; simpa using ha), hsel]
    exact writesControl_done rfl rfl ⟨pick_addr_toNat ha, rfl⟩ rfl
  case xaLow8 =>
    rw [exec_xaFromA_of_fits hm j (by rw [tooBig_iff]; omega), hsel]
    exact writesControl_done rfl rfl ⟨pick_low8_toNat ha, rfl⟩ rfl
  case xaBeyond => rw [exec_xaFromA_of_monitor hm, if_pos ((tooBig_iff _ _).mpr ha)]
  case rtc =>
    rw [exec_rtcLoad_of_monitor hm]
    exact writesControl_done rfl rfl rfl rfl
  case clock =>
    rw [exec_pciLoad_of_monitor hm, if_neg (Nat.not_le.mpr hv)]
    have hlow : ((s.sjVal j).setWidth 32).toNat = v := (BitVec.toNat_setWidth 32 _).trans (Nat.mod_eq_of_lt hv)
    exact writesControl_done rfl rfl ⟨hlow, hlow, rfl⟩ rfl
  case clockBeyond => rw [exec_pciLoad_of_monitor hm, if_pos hv]
  case cci =>
    rw [exec_cci_of_monitor hm]
    exact writesControl_done rfl rfl rfl rfl
  case eci =>
    rw [exec_eci_of_monitor hm]
    exact writesControl_done rfl rfl rfl rfl
  case dci =>
    rw [exec_dci_of_monitor hm]
    exact writesControl_done rfl rfl rfl rfl
  case cipi =>
    rw [exec_cipi_of_monitor hm]
    exact writesControl_done rfl rfl rfl rfl
  case sipi =>
    rw [exec_sipi_of_monitor hm, hx, if_neg (Nat.not_le.mpr hlt), if_neg (mt hself.mp hne)]
    refine ⟨_, rfl, moved_advance _ _ _ rfl, fun _ => rfl, ?_, rfl⟩
    simp only [State.advance_others, State.requestIpi_others, pn_eq_iff, hx]
  case sipiBeyond => rw [exec_sipi_of_monitor hm, hx, if_pos hle]
  case sipiSelf => rw [exec_sipi_of_monitor hm, hx, if_neg (Nat.not_le.mpr hlt), if_pos (hself.mpr he)]
  case cln =>
    rw [exec_clnLoad_of_monitor hm, hx, if_neg (Nat.not_lt.mpr hle)]
    have hlow : ((s.selectVal j).setWidth 4).toNat = x := by
      rw [BitVec.toNat_setWidth, hx]
      exact Nat.mod_eq_of_lt (hle.trans_lt hn)
    exact ⟨_, rfl, moved_advance _ _ _ rfl, fun _ => rfl, hlow, rfl⟩
  case clnBeyond => rw [exec_clnLoad_of_monitor hm, hx, if_pos hlt]

/-! ## Channel reads (R495 to R497) -/

section
variable {s : State}

/-- R495: the first channel of the priority order that requests an interrupt. -/
theorem requesting_of_first {l r : List Channel} {c : Channel} (h : s.channels = l ++ c :: r) (hc : c.intFlag = true)
    (hl : ∀ d ∈ l, d.intFlag = false) : s.requesting = some c :=
  List.find?_eq_some_iff_append.mpr ⟨hc, l, r, h, fun d hd => by rw [hl d hd]; rfl⟩

theorem requesting_of_none (h : ∀ d ∈ s.channels, d.intFlag = false) : s.requesting = none :=
  List.find?_eq_none.mpr fun d hd => by rw [h d hd]; exact Bool.false_ne_true

theorem exec_aFromCi_of_some (i : BitVec 3) {c : Channel} (h : s.requesting = some c) :
    exec (.aFromCi i) s = (s.writeA i c.num).done 1 := by
  show execAFromCi i s = _
  rw [execAFromCi, h]

theorem exec_aFromCi_of_none (i : BitVec 3) (h : s.requesting = none) :
    exec (.aFromCi i) s = ((s.writeA i ((s.drawAt 0).setWidth 32)).drawn 1).done 1 := by
  show execAFromCi i s = _
  rw [execAFromCi, h]

theorem exec_aFromCa (i : BitVec 3) {j : BitVec 3} (hj : j ≠ 0) : exec (.aFromCa i j) s =
    s.withChannel (s.ajVal j) fun c => (s.writeA i c.ca).done 1 := by
  rw [s.ajVal_of_ne hj]
  rfl

theorem exec_aFromCe (i : BitVec 3) {j : BitVec 3} (hj : j ≠ 0) : exec (.aFromCe i j) s =
    s.withChannel (s.ajVal j) fun c => (s.writeA i ((BitVec.ofBool c.errFlag).setWidth 32)).done 1 := by
  rw [s.ajVal_of_ne hj]
  rfl

end

/-- R497: the error flag as the integer 0 or 1. -/
theorem amask_ofBool_toNat (eam b : Bool) :
    (amask eam ((BitVec.ofBool b).setWidth 32)).toNat = if b then 1 else 0 := by
  cases eam <;> cases b <;> rfl

/-- Settles O59: each read writes Ai through the mask, of a channel that the configuration has. -/
theorem channelReads : Obligations.ChannelReads := by
  intro s i j n
  refine ⟨fun l c r h hc hl => ?first, fun hnone => ?draw, fun hj c hc => ?known, fun hj hnone => ?unknown⟩
  case first =>
    rw [exec_aFromCi_of_some i (requesting_of_first h hc hl)]
    exact givesA_done s i _ 1 _ (amask_toNat _ _)
  case draw =>
    rw [exec_aFromCi_of_none i (requesting_of_none hnone)]
    exact ⟨_, rfl, moved_advance _ _ _ rfl, fun _ => rfl, fun r hr => regGet_regPut_ne _ _ _ _ hr, rfl⟩
  case known =>
    rw [exec_aFromCa i hj, exec_aFromCe i hj, withChannel_of_some hc, withChannel_of_some hc]
    exact ⟨givesA_done s i _ 1 _ (amask_toNat _ _), givesA_done s i _ 1 _ (amask_ofBool_toNat _ _)⟩
  case unknown =>
    rw [exec_aFromCa i hj, exec_aFromCe i hj]
    exact ⟨withChannel_of_none hnone, withChannel_of_none hnone⟩

end Sys2Proof.Machine
end

section
/-! What the machine does to a CPU between two of its own steps (60_exceptions.md R565): the others' steps and the world
outside leave its program alone, so that in a fair run (70_reset_and_hazards.md R599) it comes to its next boundary as
it was. -/

namespace Sys2Proof.Machine

open Sys2Proof

/-! ## A CPU that waits -/

/-- What may become of a CPU that waits: its flags, its memory error state, its clock and its requests may differ, and
no request is lost. -/
structure Undisturbed (c d : Cpu) : Prop where
  frame : d = { c with
    f := d.f, memErr := d.memErr, cmeSeen := d.cmeSeen, umeSeen := d.umeSeen, pc := d.pc
    pciRequest := d.pciRequest, ipiRequest := d.ipiRequest }
  ipi : c.ipiRequest = true → d.ipiRequest = true
  pci : c.pciRequest = true → d.pciRequest = true

theorem Undisturbed.refl (c : Cpu) : Undisturbed c c := ⟨rfl, id, id⟩

theorem Undisturbed.trans {c d e : Cpu} (h : Undisturbed c d) (h' : Undisturbed d e) : Undisturbed c e :=
  ⟨h'.frame.trans (by rw [h.frame]), fun hc => h'.ipi (h.ipi hc), fun hc => h'.pci (h.pci hc)⟩

theorem Undisturbed.pn {c d : Cpu} (h : Undisturbed c d) : d.pn = c.pn := by rw [h.frame]

theorem undisturbed_of_ioi {c d : Cpu} (h : d = { c with f := { c.f with ioi := d.f.ioi } }) : Undisturbed c d := by
  rw [h]; exact ⟨rfl, id, id⟩

theorem undisturbed_of_dl {c d : Cpu} (h : d = { c with f := { c.f with dl := d.f.dl } }) : Undisturbed c d := by
  rw [h]; exact ⟨rfl, id, id⟩

/-- A clock period runs the clock, which may set its request (R552). -/
theorem undisturbed_tick {c d : Cpu} (h : c.tick = .ok d) : Undisturbed c d := by
  unfold Cpu.tick at h
  split at h
  · cases h
  · split at h
    · cases h; exact ⟨rfl, id, fun _ => rfl⟩
    · cases h; exact ⟨rfl, id, id⟩

/-- All CPUs of a list wait. -/
abbrev AllUndisturbed (l k : List Cpu) : Prop := List.Forall₂ Undisturbed l k

theorem AllUndisturbed.refl (l : List Cpu) : AllUndisturbed l l := List.forall₂_same.mpr fun c _ => .refl c

theorem AllUndisturbed.trans {l k m : List Cpu} (h : AllUndisturbed l k) (h' : AllUndisturbed k m) :
    AllUndisturbed l m := by
  induction h generalizing m with
  | nil => exact h'
  | cons hcd _ ih =>
    cases h' with
    | cons hde hrest => exact .cons (hcd.trans hde) (ih hrest)

/-! ## The instructions of another CPU -/

/-- In either mode an instruction that is neither privileged nor an exit leaves alone what monitor mode owns: its shape
(`exec_spares`), not its mode, is the reason. -/
theorem exec_spares_of_not_privileged {s : State} (i : Instr) (hi : privileged i = false) (hex : i ≠ .ex)
    (herr : i ≠ .err) : Spares s (exec i s) := by
  cases i with
  | ex => exact absurd rfl hex
  | err => exact absurd rfl herr
  | chCa | chCl | chCi | chMc | xaFromA | rtcLoad | pciLoad | cci | eci | sipi | dci | cipi | clnLoad => cases hi
  | aImm24 | aImm22 | aImm22c | aImm32 | aImm32c | aImm6 | aFromS | aFromVl | aFromB | bFromA | aAdd | aSub | aMul
  | aPop | aParity | aLzc | sImm22 | sImm22c | sImm32 | sImm32c | sMaskr | sMaskl | sFc06 | sFc04 | sFc1 | sFc2 | sFc4
  | sFromA | sFromASx | sFromAFlt | sFromRtc | sFromVm | sFromSr | sFromT | tFromS | vmFromS | sAdd | sSub | sAnd
  | sAndn | sXor | sXnor | sMerge | sOr | s0Shl | s0Shr | sShl | sShr | sDshl | sDshr | dcbw | ecbw | dsbo | esbo | cmr
  | pass | jExp | rExp | dbm | ebm | efi | dfi | eri | dri => exact spares_registers rfl rfl
  | aFromSb | sFromSm | sFromSt =>
    unfold exec
    refine spares_shared fun _ => ?_
    exact spares_registers rfl rfl
  | sbFromA | smFromS | stFromS | smClr | smSet => exact spares_shared fun _ => spares_writeCluster _
  | smTs => exact spares_smTs _
  | sFromVelem | velemFromS =>
    unfold exec
    refine spares_withElem fun _ => ?_
    exact spares_registers rfl rfl
  | vlFromA | jB => exact spares_unless <| spares_registers rfl rfl
  | jaz | jan | jap | jam | jsz | jsn | jsp | jsm => exact spares_branchIf _ _
  | sFadd | sFsub | sFmulH | sFmulR | sFiter | sFrecip => exact spares_scalarFp _ _
  | sFmul => exact spares_fpError _ _ _ rfl rfl
  | vAddSv | vAddVv | vSubSv | vSubVv | vAndSv | vAndVv | vOrSv | vOrVv | vXorSv | vXorVv | vMergeSv | vMergeVv | vShl
  | vShr | vPop | vParity => exact spares_vectorOp _ _
  | vDshl | vDshr => exact spares_unless <| spares_vectorOp _ _
  | vFaddSv | vFaddVv | vFsubSv | vFsubVv | vFmulHSv | vFmulHVv | vFmulRSv | vFmulRVv | vFrecip | vFiterSv | vFiterVv =>
    exact spares_vectorFp _ _
  | vFmulSv | vFmulVv => exact spares_vectorMul _ _ _
  | vImul32 => exact spares_vImul32 _ _ _
  | vmTestZ | vmTestN | vmTestP | vmTestM => exact spares_maskTest _ _
  | vmCidxZ | vmCidxN | vmCidxP | vmCidxM => exact spares_compressedIndex _ _ _
  | ldAX => exact spares_withDisp22 fun _ => spares_loadA _ _ _
  | ldAY => exact spares_loadA _ _ _
  | stAX => exact spares_withDisp22 fun _ => spares_storeA _ _ _
  | stAY => exact spares_storeA _ _ _
  | ldSX => exact spares_withDisp22 fun _ => spares_loadS _ _ _
  | ldSY => exact spares_loadS _ _ _
  | stSX => exact spares_withDisp22 fun _ => spares_storeS _ _ _
  | stSY => exact spares_storeS _ _ _
  | ldBBlk => exact spares_ldBBlk _ _
  | ldTBlk => exact spares_ldTBlk _ _
  | stBBlk | stTBlk => exact spares_withBlock fun _ => spares_blockWrite _ _ _
  | ldV => exact spares_loadV _ _
  | ldVGather => exact spares_unless <| spares_loadV _ _
  | stV | stVScatter => exact spares_storeV _ _ _
  | aFromCi => exact spares_aFromCi _
  | aFromCa | aFromCe => exact spares_withChannel fun _ => spares_registers rfl rfl

/-- An outcome that, if it is a next state, leaves the CPUs that do not move waiting. -/
def OthersWait (s : State) (o : Out) : Prop := ∀ t, o = .next t → AllUndisturbed s.others t.others

section
variable {s : State}

theorem othersWait_next {t : State} (h : AllUndisturbed s.others t.others) : OthersWait s (.next t) :=
  fun _ e => Host.Outcome.next.inj e ▸ h

theorem othersWait_same {t : State} (h : t.others = s.others) : OthersWait s (.next t) :=
  othersWait_next (h ▸ .refl _)

theorem othersWait_stop (e : Stop) : OthersWait s e.out := fun t ht => absurd ht (stop_ne_next e t)

theorem othersWait_refused (r : Refusal) : OthersWait s (.refused r) := othersWait_stop (.refuse r)

theorem othersWait_ite {a b : Out} {c : Prop} [Decidable c] (ha : OthersWait s a) (hb : OthersWait s b) :
    OthersWait s (if c then a else b) := by
  split
  · exact ha
  · exact hb

theorem othersWait_unless {r : Refusal} {o : Out} {c : Prop} [Decidable c] (h : OthersWait s o) :
    OthersWait s (if c then .refused r else o) := othersWait_ite (othersWait_refused r) h

theorem OthersWait.of_others {t : State} {o : Out} (h : OthersWait t o) (ht : AllUndisturbed s.others t.others) :
    OthersWait s o := fun u hu => ht.trans (h u hu)

theorem Spares.othersWait {o : Out} (h : Spares s o) : OthersWait s o := fun t ht => by
  have howned := (h t ht).owned
  simp only [State.monitorOwned, Prod.mk.injEq] at howned
  obtain ⟨-, -, -, -, hothers⟩ := howned
  exact hothers ▸ .refl _

theorem othersWait_monitorOnly {o : Out} (h : OthersWait s o) : OthersWait s (s.monitorOnly o) :=
  othersWait_ite h (othersWait_same rfl)

theorem othersWait_withChannel {ch : Addr} {k : Channel → Out} (h : ∀ c, OthersWait s (k c)) :
    OthersWait s (s.withChannel ch k) := fun t ht =>
  have ⟨c, _, hk⟩ := withChannel_next.mp ht
  h c t hk

/-- An exchange loads the CPU that moves. -/
theorem othersWait_exchange (s : State) : OthersWait s s.exchangeSequence := fun t ht => by
  obtain ⟨-, -, -, -, rfl⟩ := exchange_next.mp ht
  rw [swapped_frame]
  exact .refl _

/-- R484: the one instruction that reaches another CPU sets a request. -/
theorem othersWait_requestIpi (x : Addr) : OthersWait s ((s.requestIpi x).done 1) := by
  refine othersWait_next ?_
  rw [State.advance_others, State.requestIpi_others]
  refine List.forall₂_map_right_iff.mpr (List.forall₂_same.mpr fun c _ => ?_)
  split
  · exact ⟨rfl, fun _ => rfl, id⟩
  · exact .refl c

theorem exec_othersWait_of_privileged {i : Instr} (hi : privileged i = true) : OthersWait s (exec i s) := by
  cases i with
  | sipi =>
    exact othersWait_monitorOnly <| othersWait_unless <| othersWait_unless <| othersWait_requestIpi _
  | chCa | chCl =>
    exact othersWait_monitorOnly <| othersWait_withChannel fun _ => othersWait_unless <| othersWait_same rfl
  | chCi | chMc => exact othersWait_monitorOnly <| othersWait_withChannel fun _ => othersWait_same rfl
  | xaFromA | pciLoad | clnLoad => exact othersWait_monitorOnly <| othersWait_unless <| othersWait_same rfl
  | rtcLoad | cci | eci | dci | cipi => exact othersWait_monitorOnly <| othersWait_same rfl
  | _ => cases hi

/-- An instruction, in either mode, leaves the other CPUs waiting. -/
theorem exec_othersWait (s : State) (i : Instr) : OthersWait s (exec i s) := by
  by_cases hex : i = .ex
  · subst hex
    exact othersWait_exchange (s.exiting _)
  by_cases herr : i = .err
  · subst herr
    exact othersWait_exchange (s.exiting _)
  cases hi : privileged i with
  | true => exact exec_othersWait_of_privileged hi
  | false => exact (exec_spares_of_not_privileged i hi hex herr).othersWait

/-! ## The step of another CPU -/

theorem fetchParcel_others {t : State} {n : Nat} {p : Parcel} (h : s.fetchParcel n = .ok (some (p, t))) :
    t.others = s.others := by
  unfold State.fetchParcel at h
  simp only at h
  repeat' split at h
  all_goals cases h
  rfl

/-- The fetch of one parcel leaves the other CPUs as they are. -/
theorem othersWait_withParcel {n : Nat} {k : Parcel → State → Out} (h : ∀ p t, OthersWait t (k p t)) :
    OthersWait s (s.withParcel n k) := fun t ht => by
  obtain ⟨x, hx, hnext⟩ := orStop_next.mp ht
  cases x with
  | none =>
    have hrange : OthersWait s s.programRange := othersWait_ite (othersWait_same rfl) (othersWait_refused _)
    exact hrange t hnext
  | some q => exact ((h q.1 q.2).of_others (fetchParcel_others hx ▸ .refl _)) t hnext

theorem othersWait_issueDecoded (s : State) (p m n : Parcel) : OthersWait s (s.issueDecoded p m n) := by
  unfold State.issueDecoded
  split
  · exact exec_othersWait s _
  · exact othersWait_refused _

theorem othersWait_fetchAndIssue (s : State) : OthersWait s s.fetchAndIssue :=
  othersWait_withParcel fun _ t => othersWait_ite (othersWait_issueDecoded t _ _ _) <|
    othersWait_withParcel fun _ u => othersWait_ite (othersWait_issueDecoded u _ _ _) <|
      othersWait_withParcel fun _ v => othersWait_issueDecoded v _ _ _

theorem othersWait_issue (s : State) : OthersWait s s.issue := by
  unfold State.issue
  split
  · exact exec_othersWait s _
  · exact othersWait_fetchAndIssue s

/-- What a boundary finds out about the other CPUs sets their flags alone. -/
theorem atBoundary_others (s : State) : AllUndisturbed s.others s.atBoundary.others := by
  obtain ⟨-, hroute⟩ := List.forall₂_cons.mp (routeIo_frame (s.withCpu s.cpu.seeRequests))
  obtain ⟨-, hdead⟩ := List.forall₂_cons.mp (checkDeadlock_frame (s.withCpu s.cpu.seeRequests).routeIo)
  exact AllUndisturbed.trans (hroute.imp fun _ _ => undisturbed_of_ioi) (hdead.imp fun _ _ => undisturbed_of_dl)

theorem othersWait_boundary (s : State) : OthersWait s s.boundary :=
  (othersWait_ite (othersWait_exchange s.atBoundary) (othersWait_issue s.atBoundary)).of_others (atBoundary_others s)

theorem othersWait_act (s : State) : OthersWait s s.act :=
  othersWait_ite (othersWait_same rfl) <| othersWait_ite (othersWait_exchange s) (othersWait_boundary s)

end

/-! ## Following one CPU through events and steps -/

/-- The CPU with number `q`, if `s` has it, is in `t` and has waited. -/
def Waits (q : BitVec 3) (s t : State) : Prop := ∀ c ∈ s.cpus, c.pn = q → ∃ d ∈ t.cpus, Undisturbed c d

section
variable {q : BitVec 3} {s t u : State}

theorem Waits.trans (h : Waits q s t) (h' : Waits q t u) : Waits q s u := fun c hc hq =>
  have ⟨_, hd, hcd⟩ := h c hc hq
  have ⟨e, he, hde⟩ := h' _ hd (hcd.pn.trans hq)
  ⟨e, he, hcd.trans hde⟩

theorem waits_of_mem (h : ∀ c ∈ s.cpus, c ∈ t.cpus) : Waits q s t := fun c hc _ => ⟨c, h c hc, .refl c⟩

theorem waits_of_cpus (h : t.cpus = s.cpus) : Waits q s t := waits_of_mem fun _ hc => h ▸ hc

theorem waits_of_all {l k : List Cpu} (h : AllUndisturbed l k) : ∀ c ∈ l, ∃ d ∈ k, Undisturbed c d := by
  induction h with
  | nil => simp
  | cons hcd _ ih =>
    refine List.forall_mem_cons.mpr ⟨⟨_, List.mem_cons_self, hcd⟩, fun c hc => ?_⟩
    obtain ⟨d, hd, h⟩ := ih c hc
    exact ⟨d, List.mem_cons_of_mem _ hd, h⟩

/-- A change of CPU `p`, which disturbs it only if it is another CPU. -/
theorem waits_updateCpu (p : BitVec 3) (f : Cpu → Cpu) (hf : p = q → ∀ c, Undisturbed c (f c)) :
    Waits q s (s.updateCpu p f) := fun c hc hq => by
  refine ⟨_, cpus_updateCpu s p f ▸ List.mem_map_of_mem hc, ?_⟩
  split
  · rename_i hp
    exact hf (hp.symm.trans hq) c
  · exact .refl c

/-! ## Events (log 3) -/

theorem chanStep_cpus {ch : Addr} {w : Word} (h : s.chanStep ch w = .ok t) : t.cpus = s.cpus := by
  unfold State.chanStep at h
  repeat' split at h
  all_goals cases h
  all_goals rfl

theorem waits_chanReadError {ch : Addr} {p : BitVec 3} {kind : MemErrKind} {info : MemErrInfo}
    (h : s.chanReadError ch p kind info = .ok t) : Waits q s t := by
  unfold State.chanReadError at h
  split at h
  · cases h; exact waits_of_cpus rfl
  · split at h
    · exact (waits_updateCpu p (fun c => c.noteMemError kind info) fun _ _ => ⟨rfl, id, id⟩).trans
        (waits_of_cpus (chanStep_cpus h))
    · cases h; exact waits_of_cpus rfl

/-- The event is no deadstart of CPU `q` and no parity error in one of its registers. -/
def SparesCpu (q : BitVec 3) (e : Event) : Prop :=
  (∀ xa, e ≠ .deadstart q xa) ∧ ∀ reg info, e ≠ .parityError q reg info

theorem waits_happen {e : Event} (he : SparesCpu q e) (h : s.happen e = .ok t) : Waits q s t := by
  obtain ⟨hstart, hparity⟩ := he
  cases e with
  | tick => exact fun c hc _ => waits_of_all ((tick_ok h).1.imp fun _ _ => undisturbed_tick) c hc
  | turn => cases h; exact waits_of_mem fun _ hc => (cpus_turn s).mem_iff.mpr hc
  | mcu p => cases h; exact waits_updateCpu p _ fun _ _ => ⟨rfl, id, id⟩
  | readError e => cases h; exact waits_of_cpus rfl
  | parityError p reg info =>
    cases h
    have hcpu : Waits q s (s.updateCpu p fun c => c.parityError reg info (s.drawAt 0)) :=
      waits_updateCpu p _ fun hp => absurd (hp ▸ rfl) (hparity reg info)
    exact hcpu.trans (waits_of_cpus rfl)
  | chanStep ch w => exact waits_of_cpus (chanStep_cpus h)
  | chanReadError ch p kind info => exact waits_chanReadError h
  | chanError ch => cases h; exact waits_of_cpus rfl
  | readyHeld ch => cases h; exact waits_of_cpus rfl
  | deadstart p xa => cases h; exact waits_updateCpu p _ fun hp => absurd (hp ▸ rfl) (hstart xa)

theorem waits_happenAll {l : List Event} (hl : ∀ e ∈ l, SparesCpu q e) (h : s.happenAll l = .ok t) :
    Waits q s t := by
  induction l generalizing s with
  | nil => cases h; exact waits_of_cpus rfl
  | cons e rest ih =>
    obtain ⟨he, hrest⟩ := List.forall_mem_cons.mp hl
    rw [State.happenAll] at h
    cases hx : s.happen e with
    | error x => rw [hx] at h; cases h
    | ok v => rw [hx] at h; exact (waits_happen he hx).trans (ih hrest h)

/-- The step of another CPU. -/
theorem waits_act (hq : s.cpu.pn ≠ q) (h : s.act = .next t) : Waits q s t := fun c hc hcq => by
  have hmem : c ∈ s.others := (List.mem_cons.mp hc).resolve_left fun e => hq (e ▸ hcq)
  obtain ⟨d, hd, hcd⟩ := waits_of_all (othersWait_act s t h) c hmem
  exact ⟨d, List.mem_cons_of_mem _ hd, hcd⟩

end

/-! ## Runs (R565, R599) -/

section
variable {w : World} {run : Nat → State} {q : BitVec 3} {m : Nat} {u : State}

theorem waits_delivered (hw : ∀ e ∈ w m, SparesCpu q e) (hd : Delivered w run m u) : Waits q (run m) u :=
  (waits_of_cpus rfl : Waits q (run m) { run m with agenda := [], readErrors := [] }).trans (waits_happenAll hw hd)

/-- Each step of a run delivers its batch; then the CPU that moves acts. -/
theorem Run.delivered (h : Run w run) (m : Nat) : ∃ u, Delivered w run m u ∧ u.act = .next (run (m + 1)) :=
  orStop_next.mp (h m)

theorem inv_with_agenda {s : State} (h : s.Inv) (l : List (List Event)) : ({ s with agenda := l } : State).Inv :=
  h.of_keys (List.forall₂_same.mpr fun _ _ => rfl) rfl

/-- The invariant holds from a step that meets it on. -/
theorem Run.inv (h : Run w run) {n : Nat} (hinv : (run n).Inv) (hm : n ≤ m) : (run m).Inv := by
  induction m, hm using Nat.le_induction with
  | base => exact hinv
  | succ m _ ih => exact stepKeepsInvariant _ _ (inv_with_agenda ih _) (h m)

/-- Until CPU `q` moves, it waits. -/
theorem Run.waits (h : Run w run) {n : Nat} (hw : ∀ k, n ≤ k → ∀ e ∈ w k, SparesCpu q e) (hm : n ≤ m)
    (hbefore : ∀ k v, n ≤ k → k < m → Delivered w run k v → v.cpu.pn ≠ q) : Waits q (run n) (run m) := by
  induction m, hm using Nat.le_induction with
  | base => exact waits_of_cpus rfl
  | succ m hnm ih =>
    obtain ⟨v, hv, hact⟩ := h.delivered m
    have hstep : Waits q (run m) (run (m + 1)) :=
      (waits_delivered (hw m hnm) hv).trans (waits_act (hbefore m v hnm (Nat.lt_succ_self m) hv) hact)
    exact (ih fun k v hk hlt => hbefore k v hk (hlt.trans (Nat.lt_succ_self m))).trans hstep

end

/-- Where the processor numbers are distinct, the CPU with the number of the one that moves is the one that moves. -/
theorem State.Inv.eq_cpu {s : State} (h : s.Inv) {c : Cpu} (hc : c ∈ s.cpus) (hpn : c.pn = s.cpu.pn) : c = s.cpu :=
  List.inj_on_of_nodup_map h.pns hc List.mem_cons_self hpn

/-- Settles O54: at the first boundary, from step `n` on, at which the moving CPU has the number of `c`, it is `c` after
its wait; fairness says that there is one. -/
theorem fairRunsReachEveryCpu : Obligations.FairRunsReachEveryCpu := by
  intro w run n c hrun hfair hinv hc _ hhold hworld
  classical
  have hmoves : ∃ m, n ≤ m ∧ ∃ u, Delivered w run m u ∧ u.cpu.pn = c.pn := by
    obtain ⟨m, u, hm, hd, hpn⟩ := hfair.moves n c hc hhold
    exact ⟨m, hm, u, hd, hpn⟩
  have hspares : ∀ k, n ≤ k → ∀ e ∈ w k, SparesCpu c.pn e := fun k hk e he =>
    ⟨fun xa h => (hworld k hk).1 xa (h ▸ he), fun reg info h => (hworld k hk).2 reg info (h ▸ he)⟩
  obtain ⟨hm, u, hd, hpn⟩ := Nat.find_spec hmoves
  have hfirst : ∀ k v, n ≤ k → k < Nat.find hmoves → Delivered w run k v → v.cpu.pn ≠ c.pn :=
    fun k v hk hlt hv hq => Nat.find_min hmoves hlt ⟨hk, v, hv, hq⟩
  obtain ⟨d, hdu, hcd⟩ := ((hrun.waits hspares hm hfirst).trans (waits_delivered (hspares _ hm) hd)) c hc rfl
  have hu : u.Inv := (inv_with_agenda (hrun.inv hinv hm) _).deliver hd
  obtain rfl := hu.eq_cpu hdu (hcd.pn.trans hpn.symm)
  exact ⟨_, u, hm, hd, hcd.frame, hcd.ipi, hcd.pci⟩

end Sys2Proof.Machine
end
